-- ==== Sys2Proof/Word.lean ====
section
/-! DEFINITION. The words the LK-910 computes on (R3, R14): plain abbreviations of bit vectors, and the two ways of widening
one. Bit 0 is the least significant bit everywhere. -/

namespace Sys2Proof

/-- One byte of memory. -/
abbrev Byte := BitVec 8

/-- An x or g register, a control register, a doubleword (R14). -/
abbrev Word := BitVec 64

/-- A v register: 128 bytes (R16). -/
abbrev Vec := BitVec 1024

/-- A p register: one bit a byte lane (R17). -/
abbrev Pred := BitVec 128

/-- The number of an x, c or v register. -/
abbrev Reg := Fin 32

/-- `SExt(v, 64)` of R7's pseudocode. -/
def sext64 {n : Nat} (v : BitVec n) : Word := v.signExtend 64

/-- `ZExt(v, 64)` of R7's pseudocode. -/
def zext64 {n : Nat} (v : BitVec n) : Word := v.zeroExtend 64

end Sys2Proof
end

