-- ==== Sys2Proof/Config.lean ====
section
/-! DEFINITION. What one implementation of the LK-910 fixes and the manual does not give: free values and uninterpreted
functions. None has a body that a proof can see; every statement about them holds whatever they are. The assumption log names
each (notes/assumptions). -/

namespace Sys2Proof.Config

/-- A value the manual leaves open, one for each value of State.freeCtr (log 4). -/
opaque freeWord : Nat → Word

/-- A choice among `n + 1` things that the manual leaves open, by State.freeCtr (log 4). -/
opaque freeChoice : Nat → Nat → Nat

/-- A byte of the peer card's memory as this card reads it in a cycle: the peer changes it on its own (log 20). -/
opaque peerByte : Nat → Nat → Byte

/-- A granule tag of the peer card's memory (log 20). -/
opaque peerTag : Nat → Nat → Bool

/-- The layout epoch that Thimble draws at the power-on numbered here (R453, log 4). -/
opaque epochAtPowerOn : Nat → Word

/-- The 64-bit Carter-Wegman MAC of R451: key, the 256 bytes of the block as one number, its address, OBJID and version.
The manual names the construction and gives no polynomial (log 5). -/
opaque mac64 : BitVec 512 → BitVec 2048 → Word → BitVec 20 → BitVec 48 → Word

/-- AES-256 of one 16-byte unit (R294, Table 11.8): key and counter block. The standard is named, its tables are not in
the manual (log 5). -/
opaque aes256 : BitVec 256 → BitVec 128 → BitVec 128

/-- SHA3-512 of a list of bytes (R452, R453, log 5). -/
opaque sha3_512 : List Byte → BitVec 512

/-- Whether the ML-DSA-87 signature of a firmware image with this SHA3-512 digest verifies against the fused key (R452,
log 5). -/
opaque firmwareGenuine : BitVec 512 → Bool

/-- The ML-DSA-87 signature of evidence with this digest under the device identity key, 4,627 bytes (R454, log 5). -/
opaque evidenceSignature : BitVec 512 → BitVec 37016

/-- The digest of the ML-KEM-1024 encapsulation key of a boot, by State.powerOns (R454, log 5). -/
opaque encapsulationKeyDigest : Nat → BitVec 512

/-- What decapsulating under the key of a boot and unwrapping a KEYIMP request gives: the data key and the MAC key, or none when
decapsulation or unwrap fails (R454, log 5). The arguments are State.powerOns and the request's bytes as one number. -/
opaque unwrapKeys : Nat → Nat → Option (BitVec 256 × BitVec 512)

/-- The peer card's region map as it stands in a cycle: whether a region of its memory, by region index with the die above, is assigned
to the paired partition, and whether it is ENC-capable (R429, R432, log 20). -/
opaque peerRegion : Nat → Nat → Bool × Bool

/-- Whether the peer card's part of a paired partition's all-asleep tree is high in a cycle (R402, log 20). -/
opaque peerAsleep : Nat → Nat → Bool

end Sys2Proof.Config
end

