-- ==== Sys2Proof/Syntax.lean ====
section
/-! DEFINITION. The instructions and events of the LK-910: one constructor of `Instr` for each row of spec/opcode_table.json.
An encoded instruction carries the fields of its format (Table 2.1) that are operands of it, named as the manual names them;
the fields that select the instruction are the constructor itself. The 85 rows that have no encoding are steps of other agents
(the engines, the dispatcher, the partition manager, the host, the peer card); their constructors carry what such a step is about. -/

namespace Sys2Proof

/-- Format R (R56): rd, rs1, rs2, the synchronised-read modifier SR (R68), the hint bits H1 H0 (R59), the stall count (R61). -/
structure RArgs where
  rd : Reg
  rs1 : Reg
  rs2 : Reg
  sr : Bool
  h : Fin 4
  sc : Fin 4
  deriving DecidableEq, Repr

/-- The three scalar floating-point types of majors 0x04, 0x05, 0x06 (R92). -/
inductive FTy | f32 | bf16 | fp16
  deriving DecidableEq, Repr

/-- Format R in majors 0x04 to 0x06: the major is the type. -/
structure FArgs where
  ty : FTy
  rd : Reg
  rs1 : Reg
  rs2 : Reg
  sr : Bool
  h : Fin 4
  sc : Fin 4
  deriving DecidableEq, Repr

/-- FCVT (R98): destination and source codes 0 FP32, 1 BF16, 2 FP16, 3 S64; rounding mode; SAT. -/
structure CvtArgs where
  dst : Fin 4
  src : Fin 4
  rd : Reg
  rs1 : Reg
  rm : Fin 4
  sat : Bool
  sr : Bool
  h : Fin 4
  sc : Fin 4
  deriving DecidableEq, Repr

/-- Format I: signed 10-bit immediate (R57). -/
structure IArgs where
  rd : Reg
  rs1 : Reg
  imm : BitVec 10
  sc : Fin 4
  deriving DecidableEq, Repr

/-- Formats S and B: the split 10-bit immediate or offset (R57). -/
structure SArgs where
  rs1 : Reg
  rs2 : Reg
  imm : BitVec 10
  sc : Fin 4
  deriving DecidableEq, Repr

/-- Format U. -/
structure UArgs where
  rd : Reg
  imm : BitVec 18
  sc : Fin 4
  deriving DecidableEq, Repr

/-- Format J: offset in halfwords. -/
structure JArgs where
  off : BitVec 23
  sc : Fin 4
  deriving DecidableEq, Repr

/-- The REP prefix (Table 2.4). -/
structure RepArgs where
  ostep : BitVec 9
  s2 : Bool
  s1 : Bool
  sd : Bool
  count : Fin 1024
  xc : Bool
  sc : Fin 4
  deriving DecidableEq, Repr

/-- Format M: element mode. -/
structure MArgs where
  rd : Reg
  cs : Reg
  xi : Reg
  xj : Reg
  h0 : Bool
  sc : Fin 4
  deriving DecidableEq, Repr

/-- Format A: atomics and ordered access, with ORD (R78). -/
structure AArgs where
  rd : Reg
  cs : Reg
  rs2 : Reg
  scope : Fin 8
  ord : Fin 4
  sc : Fin 4
  deriving DecidableEq, Repr

/-- Format V where the major alone selects the instruction: f2 is the type, width or rounding mode (R79). -/
structure VArgs where
  vd : Reg
  vs1 : Reg
  vs2 : Reg
  pg : Fin 8
  f2 : Fin 4
  h : Fin 4
  sc : Fin 4
  deriving DecidableEq, Repr

/-- Format V where f2 selects the instruction. -/
structure VfArgs where
  vd : Reg
  vs1 : Reg
  vs2 : Reg
  pg : Fin 8
  h : Fin 4
  sc : Fin 4
  deriving DecidableEq, Repr

/-- Format V where the vs2 field selects the instruction (majors 0x28 and 0x2F). -/
structure VuArgs where
  vd : Reg
  vs1 : Reg
  pg : Fin 8
  f2 : Fin 4
  h : Fin 4
  sc : Fin 4
  deriving DecidableEq, Repr

/-- Format V where pg selects the instruction (major 0x32). -/
structure VpArgs where
  vd : Reg
  vs1 : Reg
  vs2 : Reg
  f2 : Fin 4
  h : Fin 4
  sc : Fin 4
  deriving DecidableEq, Repr

/-- Format E where the major alone selects the instruction (MMA, MSTORE). -/
structure EArgs where
  ca : Reg
  cb : Reg
  xc : Reg
  q : Fin 8
  f2 : Fin 4
  h : Fin 4
  sc : Fin 4
  deriving DecidableEq, Repr

/-- Format E where f2 selects the instruction. -/
structure EfArgs where
  ca : Reg
  cb : Reg
  xc : Reg
  q : Fin 8
  h : Fin 4
  sc : Fin 4
  deriving DecidableEq, Repr

/-- Format E where q selects the instruction (majors 0x37 and 0x3B). -/
structure EqArgs where
  ca : Reg
  cb : Reg
  xc : Reg
  f2 : Fin 4
  h : Fin 4
  sc : Fin 4
  deriving DecidableEq, Repr

/-- A 16-bit lane operation (R74): vd is also the first source; the predicate is p0 or p1. -/
structure C16Args where
  vd : Reg
  vs2 : Reg
  p1 : Bool
  deriving DecidableEq, Repr

/-- The partition descriptor of Table 21.5, with what the physical function assigns beside it (R444): the regions and way mask, and the value
of OTBASE, which locates the object table that creation writes (R435, log 81). A region is named by 128 × die + r. -/
structure Descriptor where
  partid : Fin 16
  clusters : BitVec 32
  ptroot : BitVec 48
  n1 : Fin 32
  imgbase : BitVec 48
  frameid : BitVec 20
  framesz : Fin 8
  frameva : BitVec 55
  vbase : BitVec 16
  vcount : BitVec 16
  savebase : BitVec 48
  regions : List Nat
  encRegions : List Nat
  wmask : BitVec 16
  otbase : Word
  deriving DecidableEq, Repr

/-- An uncorrectable error (R398, Table 17.4): where it lies, the second copy of its owner's PARTID where the error has made it disagree with the
first, and whether a line is being written back as it is found. -/
structure UeArgs where
  array : Fin 16
  die : Fin 2
  cluster : Fin 16
  core : Fin 8
  index : BitVec 46
  second : Option (Fin 16)
  writeBack : Bool
  deriving DecidableEq, Repr

/-- A byte of a partition's memory as the host names it: an offset of BAR2 of its virtual function (R464). -/
structure BarPlace where
  pid : Fin 16
  offset : Nat
  deriving DecidableEq, Repr

/-- What a host read names (R4, R464, R480, R481): memory, an offset of the administrative window of a partition, reached through its alias in
the physical function or through its virtual function, or a doubleword of the state that MIGCMD 2 has saved of it, read through the alias. -/
inductive ReadPlace
  | memory (place : BarPlace)
  | window (pid : Fin 16) (physical : Bool) (offset : Nat)
  | saved (pid : Fin 16) (index : Nat)
  deriving DecidableEq, Repr

/-- What a store of the peer card carries (R407, R459, R461): the bytes, lowest first, the granule tag of a capability, and the OBJID of a page
with INTEG. -/
structure PeerData where
  bits : BitVec 512
  tag : Bool
  objid : Option (BitVec 20)
  deriving DecidableEq, Repr

/-- A read of the peer card (R458 to R461): 2 to the power `size` bytes; by a table walk or an object-table read, or of a page with INTEG by an
access through an object. -/
structure PeerRead where
  size : Fin 7
  walk : Bool
  objid : Option (BitVec 20)
  deriving DecidableEq, Repr

/-- An atomic of the peer card (R461): of 8 bytes or of 4, and the OBJID of a page with INTEG. -/
structure PeerAtom where
  wide : Bool
  objid : Option (BitVec 20)
  deriving DecidableEq, Repr

/-- What the peer card has changed of what both halves of a paired partition hold (R458): a line of a table, PTROOT, OTBASE, MTBASE or CONVPOOL. -/
inductive PeerChange
  | line (pa : Nat)
  | ptroot (value : BitVec 48)
  | otbase (value : Word)
  | mtbase (value : Word)
  | convpool (tag : Bool) (bits : BitVec 512)
  deriving DecidableEq, Repr

/-- The state that MIGCMD 3 loads (R480): whether the destination has the source's descriptor geometry, and which partition of this card the
physical function has read it from; none where it is the destination's own. -/
structure MigLoad where
  sameGeometry : Bool
  source : Option (Fin 16)
  deriving DecidableEq, Repr

/-- The head of a chunk that the partner of an LNRED has sent (R472, R473): its tag, its number, and the partner's format. -/
structure ChunkHead where
  tag : BitVec 32
  index : Nat
  fmt : BitVec 6
  deriving DecidableEq, Repr

/-- What the partner of an LNRED tells of its halt (R475): its tag, the chunk that it faulted at, and the LSTAT that this half records. -/
structure PartnerStop where
  tag : BitVec 32
  index : Nat
  lstat : Byte
  deriving DecidableEq, Repr

/-- A sweep has visited everything on this card, or the peer card reports so (R443). -/
structure SweepEnd where
  pid : Fin 16
  peer : Bool
  deriving DecidableEq, Repr

/-- A power limit that the physical function sets, if any, and the average power that the controller finds, in watts (R456). -/
structure PowerStep where
  limit : Option Nat
  watts : Nat
  deriving DecidableEq, Repr

/-- A place that a sweep visits (R441). -/
inductive SweepLoc
  | granule (pa : Nat)        -- a tagged granule of memory, by physical address
  | core (n : Nat)            -- a core's register state, engine queue entries and trusted stacks
  | cluster (n : Nat)         -- a cluster's link buffers, KMU slots and launch records
  | partition                 -- CONVPOOL and TVEC
  deriving DecidableEq, Repr

/-- The instructions and events of the LK-910. -/
inductive Instr
  /-- END_OF_KERNEL (R55). Executing the all-zero halfword end-of-kernel marker raises ILLEGAL with TVAL 0. -/
  | endOfKernel
  /-- ADD (R88). Writes the 64-bit wrapping sum of x[rs1] and x[rs2] to x[rd]. -/
  | add (a : RArgs)
  /-- SUB (R88). Writes the wrapping difference x[rs1] - x[rs2] to x[rd]. -/
  | sub (a : RArgs)
  /-- AND (R88). Writes the bitwise AND of two x registers. -/
  | and (a : RArgs)
  /-- OR (R88). Writes the bitwise OR of two x registers. -/
  | or (a : RArgs)
  /-- XOR (R88). Writes the bitwise XOR of two x registers. -/
  | xor (a : RArgs)
  /-- SLL (R88). Shifts x[rs1] left by x[rs2][5:0]. -/
  | sll (a : RArgs)
  /-- SRL (R88). Shifts x[rs1] right logically by x[rs2][5:0]. -/
  | srl (a : RArgs)
  /-- SRA (R88). Shifts x[rs1] right arithmetically by x[rs2][5:0]. -/
  | sra (a : RArgs)
  /-- ROL (R88). Rotates x[rs1] left by x[rs2][5:0]. -/
  | rol (a : RArgs)
  /-- ROR (R88). Rotates x[rs1] right by x[rs2][5:0]. -/
  | ror (a : RArgs)
  /-- SLT (R88). Writes 1 when x[rs1] is signed-less than x[rs2], else 0. -/
  | slt (a : RArgs)
  /-- SLTN (R88). Writes 1 when x[rs1] is unsigned-less than x[rs2], else 0. -/
  | sltn (a : RArgs)
  /-- MIN (R88). Writes the signed minimum of two x registers. -/
  | min (a : RArgs)
  /-- MAX (R88). Writes the signed maximum of two x registers. -/
  | max (a : RArgs)
  /-- MINN (R88). Writes the unsigned minimum of two x registers. -/
  | minn (a : RArgs)
  /-- MAXN (R88). Writes the unsigned maximum of two x registers. -/
  | maxn (a : RArgs)
  /-- MUL (R88). Writes the low 64 bits of the product of two x registers. -/
  | mul (a : RArgs)
  /-- MULH (R88). Writes bits [127:64] of the signed product. -/
  | mulh (a : RArgs)
  /-- MULHN (R88). Writes bits [127:64] of the unsigned product. -/
  | mulhn (a : RArgs)
  /-- DIV (R89). Writes the signed quotient truncated towards zero, with fixed results for zero divisor and overflow. -/
  | div (a : RArgs)
  /-- DIVN (R89). Writes the unsigned quotient, all ones for a zero divisor. -/
  | divn (a : RArgs)
  /-- REM (R89). Writes the signed remainder with the sign of the dividend. -/
  | rem (a : RArgs)
  /-- REMN (R89). Writes the unsigned remainder. -/
  | remn (a : RArgs)
  /-- CLZ (R88). Writes the count of leading zero bits of x[rs1]. -/
  | clz (a : RArgs)
  /-- CTZ (R88). Writes the count of trailing zero bits of x[rs1]. -/
  | ctz (a : RArgs)
  /-- POPC (R88). Writes the count of one bits of x[rs1]. -/
  | popc (a : RArgs)
  /-- ADDI (R90). Adds a sign-extended 10-bit immediate to x[rs1]. -/
  | addi (a : IArgs)
  /-- ANDI (R90). ANDs x[rs1] with a sign-extended immediate. -/
  | andi (a : IArgs)
  /-- ORI (R90). ORs x[rs1] with a sign-extended immediate. -/
  | ori (a : IArgs)
  /-- XORI (R90). XORs x[rs1] with a sign-extended immediate. -/
  | xori (a : IArgs)
  /-- SLLI (R90). Shifts x[rs1] left by imm[5:0]. -/
  | slli (a : IArgs)
  /-- SRLI (R90). Shifts x[rs1] right logically by imm[5:0]. -/
  | srli (a : IArgs)
  /-- SRAI (R90). Shifts x[rs1] right arithmetically by imm[5:0]. -/
  | srai (a : IArgs)
  /-- SLTI (R90). Writes 1 when x[rs1] is signed-less than the sign-extended immediate. -/
  | slti (a : IArgs)
  /-- LUI (R91). Writes the 18-bit immediate shifted left by 10 and sign-extended to x[rd]. -/
  | lui (a : UArgs)
  /-- FADD (R93). Adds two scalar floating-point values of type FP32, BF16 or FP16 with one rounding under FRM. -/
  | fadd (a : FArgs)
  /-- FSUB (R93). Subtracts two scalar floating-point values with one rounding. -/
  | fsub (a : FArgs)
  /-- FMUL (R93). Multiplies two scalar floating-point values with one rounding. -/
  | fmul (a : FArgs)
  /-- FFMA (R93). Computes a times b plus the old x[rd] with one rounding. -/
  | ffma (a : FArgs)
  /-- FDIV (R93). Divides two scalar floating-point values with one rounding, variable latency. -/
  | fdiv (a : FArgs)
  /-- FSQRT (R93). Takes the square root of a scalar floating-point value with one rounding. -/
  | fsqrt (a : FArgs)
  /-- FMIN (R95). Selects the smaller of two scalar floating-point operands, NaN-avoiding. -/
  | fmin (a : FArgs)
  /-- FMAX (R95). Selects the larger of two scalar floating-point operands, NaN-avoiding. -/
  | fmax (a : FArgs)
  /-- FCMP_EQ (R96). Writes 1 when the two operands are equal, 0 otherwise or on NaN. -/
  | fcmpEq (a : FArgs)
  /-- FCMP_LT (R96). Writes 1 when a is less than b; NaN gives 0 and NV. -/
  | fcmpLt (a : FArgs)
  /-- FCMP_LE (R96). Writes 1 when a is at most b; NaN gives 0 and NV. -/
  | fcmpLe (a : FArgs)
  /-- FCVT (R98). Converts between FP32, BF16, FP16 and S64 with the encoded rounding mode and optional saturation. -/
  | fcvt (a : CvtArgs)
  /-- BEQ (R100). Branches to PC + 2*off when the two x registers are equal. -/
  | beq (a : SArgs)
  /-- BNE (R100). Branches when the two x registers differ. -/
  | bne (a : SArgs)
  /-- BLT (R100). Branches when x[rs1] is signed-less than x[rs2]. -/
  | blt (a : SArgs)
  /-- BGE (R100). Branches when x[rs1] is signed-greater-or-equal to x[rs2]. -/
  | bge (a : SArgs)
  /-- BLTN (R100). Branches when x[rs1] is unsigned-less than x[rs2]. -/
  | bltn (a : SArgs)
  /-- BGEN (R100). Branches when x[rs1] is unsigned-greater-or-equal to x[rs2]. -/
  | bgen (a : SArgs)
  /-- JAL (R102). Writes PC + 4 to x1 and jumps by a signed 23-bit halfword offset. -/
  | jal (a : JArgs)
  /-- JALC (R103). Jumps to x[rd] + 2*imm in the current PCC or a checked code capability, writing the link to x[rd]. -/
  | jalc (a : IArgs)
  /-- TEND (R108). Ends the task or child part, waiting for its engine operations, children and launches, then records x10 as status. -/
  | tend (a : IArgs)
  /-- ECALL (R110). Raises ECALL with TVAL set to the immediate. -/
  | ecall (a : IArgs)
  /-- EBREAK (R110). Raises EBREAK with TVAL set to the immediate. -/
  | ebreak (a : IArgs)
  /-- NOP (R111). Has no effect except its stall count. -/
  | nop (a : IArgs)
  /-- REP (R70). Executes the following instruction n times with stepped register fields and offsets, recording progress in TSTAT.REPDONE. -/
  | rep (a : RepArgs)
  /-- LB (R188). Loads a sign-extended byte through a capability's byte run. -/
  | lb (a : IArgs)
  /-- LH (R188). Loads a sign-extended halfword through a capability's byte run. -/
  | lh (a : IArgs)
  /-- LW (R188). Loads a sign-extended word through a capability's byte run. -/
  | lw (a : IArgs)
  /-- LD (R188). Loads a doubleword through a capability's byte run. -/
  | ld (a : IArgs)
  /-- LBN (R188). Loads a zero-extended byte. -/
  | lbn (a : IArgs)
  /-- LHN (R188). Loads a zero-extended halfword. -/
  | lhn (a : IArgs)
  /-- LWN (R188). Loads a zero-extended word. -/
  | lwn (a : IArgs)
  /-- SB (R188). Stores the low byte of x[rs2] through a capability's byte run, clearing the granule tag. -/
  | sb (a : SArgs)
  /-- SH (R188). Stores a halfword through a capability's byte run. -/
  | sh (a : SArgs)
  /-- SW (R188). Stores a word through a capability's byte run. -/
  | sw (a : SArgs)
  /-- SD (R188). Stores a doubleword through a capability's byte run. -/
  | sd (a : SArgs)
  /-- LDE (R189). Loads one element's encoding by index vector, extending it into x[rd]. -/
  | lde (a : MArgs)
  /-- STE (R189). Stores the low esize bytes of x[rd] into one element by index vector. -/
  | ste (a : MArgs)
  /-- LC (R190). Loads a 512-bit capability, keeping the tag only when cs has LDC. -/
  | lc (a : VfArgs)
  /-- SC (R190). Stores a capability with its tag after the stored-value checks. -/
  | sc (a : VfArgs)
  /-- VLE (R191). Loads consecutive elements into the active lanes of vd. -/
  | vle (a : VfArgs)
  /-- VSE (R191). Stores the active lanes of vd to consecutive elements. -/
  | vse (a : VfArgs)
  /-- VLSE (R191). Loads strided elements into the active lanes of vd. -/
  | vlse (a : VfArgs)
  /-- VLXE (R191). Gathers elements indexed by S32 lanes of vi into vd. -/
  | vlxe (a : VfArgs)
  /-- VSXE (R192). Scatters active lanes of vd to elements indexed by vi, higher lanes winning. -/
  | vsxe (a : VfArgs)
  /-- AMOADD (R198). Atomically adds x[rs2] to element 0 of cs at its home, returning the pre-value. -/
  | amoadd (a : AArgs)
  /-- AMOAND (R198). Atomically ANDs the element with x[rs2]. -/
  | amoand (a : AArgs)
  /-- AMOOR (R198). Atomically ORs the element with x[rs2]. -/
  | amoor (a : AArgs)
  /-- AMOXOR (R198). Atomically XORs the element with x[rs2]. -/
  | amoxor (a : AArgs)
  /-- AMOMIN (R198). Atomically stores the signed minimum. -/
  | amomin (a : AArgs)
  /-- AMOMAX (R198). Atomically stores the signed maximum. -/
  | amomax (a : AArgs)
  /-- AMOMINN (R198). Atomically stores the unsigned minimum. -/
  | amominn (a : AArgs)
  /-- AMOMAXN (R198). Atomically stores the unsigned maximum. -/
  | amomaxn (a : AArgs)
  /-- AMOSWAP (R198). Atomically swaps x[rs2] into the element. -/
  | amoswap (a : AArgs)
  /-- AMOCAS (R198). Atomically writes x[rs2] when the element equals x[rd], returning the pre-value. -/
  | amocas (a : AArgs)
  /-- AMOFADD (R198). Atomically adds an FP32 value with RNE, never combined. -/
  | amofadd (a : AArgs)
  /-- LD_ACQ (R197). Performs an acquiring element load at the named scope. -/
  | ldAcq (a : AArgs)
  /-- ST_REL (R197). Performs a releasing element store at the named scope. -/
  | stRel (a : AArgs)
  /-- FENCE (R200). Orders the strand's earlier and later accesses at the named scope as acquire, release or both. -/
  | fence (a : AArgs)
  /-- LDS (R201). Waits for a full scratchpad word, takes its value and sets it empty, as an acquire. -/
  | lds (a : RArgs)
  /-- STS (R201). Waits for an empty scratchpad word, writes x[rd] and sets it full, as a release. -/
  | sts (a : RArgs)
  /-- LDF (R201). Reads the W and F bits of a scratchpad word without waiting. -/
  | ldf (a : RArgs)
  /-- SETFE (R201). Conditionally sets F and W of a word from a control word, returning the old bits. -/
  | setfe (a : RArgs)
  /-- WAITA (R201). Waits for a full word and returns its value without emptying it, as an acquire. -/
  | waita (a : RArgs)
  /-- MOVG (R205). Writes x[rs1] into a shared g register and sets it full. -/
  | movg (a : RArgs)
  /-- MOVFG (R205). Reads a shared g register into x[rd], synchronised when SR is set. -/
  | movfg (a : RArgs)
  /-- RDEF (R208). Records the next n instructions into a recipe slot without executing them. -/
  | rdef (a : RArgs)
  /-- RTAG (R210). Ties a register to a recipe slot. -/
  | rtag (a : RArgs)
  /-- RDROP (R211). Drops a tied register, discarding its value. -/
  | rdrop (a : RArgs)
  /-- RPIN (R213). Rebuilds a dropped register if needed and unties it from its slot. -/
  | rpin (a : RArgs)
  /-- RINV (R213). Rebuilds the slot's dropped registers, unties them and empties the slot. -/
  | rinv (a : RArgs)
  /-- CSLICE (R173). Narrows dimension K to a slice of length B starting at A. -/
  | cslice (a : RArgs)
  /-- CSTEP (R173). Multiplies stride K by A and divides its extent, rounding up. -/
  | cstep (a : RArgs)
  /-- CFLIP (R173). Reverses dimension K. -/
  | cflip (a : RArgs)
  /-- CPERM (R173). Exchanges dimensions K and J. -/
  | cperm (a : RArgs)
  /-- CSPLIT (R173). Splits dimension K into two dimensions of extent A and extent/A. -/
  | csplit (a : RArgs)
  /-- CMERGE (R173). Merges dimensions K and K+1 when contiguous. -/
  | cmerge (a : RArgs)
  /-- CFIX (R173). Fixes dimension K at index A and removes it. -/
  | cfix (a : RArgs)
  /-- CBCAST (R173). Inserts a stride-0 dimension of extent A, clearing ST and ATOM. -/
  | cbcast (a : RArgs)
  /-- CANDP (R173). ANDs the permissions with a mask. -/
  | candp (a : RArgs)
  /-- CREACH (R173). Lowers the reach of a capability. -/
  | creach (a : RArgs)
  /-- CRETAG (R174). Changes the kind of a capability holding RETAG to one of equal element size and sparsity. -/
  | cretag (a : RArgs)
  /-- CMOVE (R175). Copies a capability with its tag. -/
  | cmove (a : RArgs)
  /-- CCLEAR (R175). Copies a capability with the tag cleared. -/
  | cclear (a : RArgs)
  /-- CGETF (R176). Reads a selected field of a capability into x[rd]. -/
  | cgetf (a : RArgs)
  /-- CTEST (R176). Returns the sealed and tag bits of a capability. -/
  | ctest (a : RArgs)
  /-- CSUBSET (R177). Returns 1 when c[rs2] lies within c[rs1] by span, permissions and reach. -/
  | csubset (a : RArgs)
  /-- CEQ (R176). Returns 1 when two capability values agree in all bits and tag. -/
  | ceq (a : RArgs)
  /-- CBIND (R178). Seals a capability with the type of a key holding BIND. -/
  | cbind (a : RArgs)
  /-- CUNBIND (R178). Unseals a capability with a matching key holding UNBIND. -/
  | cunbind (a : RArgs)
  /-- CCALL (R182). Enters a compartment through a sealed entry pair, pushing a trusted-stack frame and clearing registers. -/
  | ccall (a : RArgs)
  /-- CRET (R183). Returns from a compartment by popping the top trusted-stack frame after clearing registers. -/
  | cret (a : RArgs)
  /-- CKEY (R179). Creates the type key of type x[rs1] with BIND and UNBIND, privileged. -/
  | ckey (a : RArgs)
  /-- VADD (R150). Adds active elements of two vectors of type T. -/
  | vadd (a : VArgs)
  /-- VSUB (R150). Subtracts active elements of two vectors. -/
  | vsub (a : VArgs)
  /-- VMUL (R150). Multiplies active elements of two vectors. -/
  | vmul (a : VArgs)
  /-- VFMA (R150). Computes vd + vs1*vs2 per active element with one rounding. -/
  | vfma (a : VArgs)
  /-- VFMS (R150). Computes vd - vs1*vs2 per active element with one rounding. -/
  | vfms (a : VArgs)
  /-- VDIV (R151). Divides active elements, variable latency. -/
  | vdiv (a : VArgs)
  /-- VMIN (R152). Selects the smaller of each active element pair. -/
  | vmin (a : VArgs)
  /-- VMAX (R152). Selects the larger of each active element pair. -/
  | vmax (a : VArgs)
  /-- VSQRT (R151). Takes the square root of each active element. -/
  | vsqrt (a : VuArgs)
  /-- VRSQ (R151). Takes the correctly rounded reciprocal square root of each active element. -/
  | vrsq (a : VuArgs)
  /-- VRCP (R151). Takes the correctly rounded reciprocal of each active element. -/
  | vrcp (a : VuArgs)
  /-- VABS (R153). Clears the sign of each active element. -/
  | vabs (a : VuArgs)
  /-- VNEG (R153). Inverts the sign of each active element. -/
  | vneg (a : VuArgs)
  /-- VEXP (R131). Computes e^a correctly rounded for each active FP32 element. -/
  | vexp (a : VuArgs)
  /-- VEXP2 (R131). Computes 2^a correctly rounded for each active FP32 element. -/
  | vexp2 (a : VuArgs)
  /-- VLOG2 (R131). Computes log2 a correctly rounded for each active FP32 element. -/
  | vlog2 (a : VuArgs)
  /-- VDOT (R154). Accumulates lane-group dot products of BF16, FP16 or S8 sources into 32-bit elements of vd. -/
  | vdot (a : VArgs)
  /-- VSLL (R155). Shifts 32-bit elements left by per-lane counts. -/
  | vsll (a : VfArgs)
  /-- VSRL (R155). Shifts 32-bit elements right logically by per-lane counts. -/
  | vsrl (a : VfArgs)
  /-- VSRA (R155). Shifts 32-bit elements right arithmetically by per-lane counts. -/
  | vsra (a : VfArgs)
  /-- VAND (R156). ANDs two vectors bytewise under the predicate. -/
  | vand (a : VfArgs)
  /-- VOR (R156). ORs two vectors bytewise under the predicate. -/
  | vor (a : VfArgs)
  /-- VXOR (R156). XORs two vectors bytewise under the predicate. -/
  | vxor (a : VfArgs)
  /-- VSEL (R156). Selects each byte from vs1 or vs2 by a predicate, unpredicated write. -/
  | vsel (a : VfArgs)
  /-- VCVT (R158). Converts elements between the formats of a pair code with the encoded rounding mode. -/
  | vcvt (a : VArgs)
  /-- VCVT_SAT (R157). Converts elements of a pair code with saturation. -/
  | vcvtSat (a : VArgs)
  /-- VPERM (R164). Permutes elements of vs1 by indices in vs2, zero beyond the count. -/
  | vperm (a : VArgs)
  /-- VSLIDE (R165). Slides the elements of vd by a signed count from an x register. -/
  | vslide (a : VuArgs)
  /-- VBCAST (R165). Broadcasts the low bits of an x register into active elements. -/
  | vbcast (a : VuArgs)
  /-- VMOVX (R165). Moves the lowest active element of vs1 into an x register. -/
  | vmovx (a : VuArgs)
  /-- VIOTA (R165). Writes each active element's index. -/
  | viota (a : VuArgs)
  /-- VCMP (R159). Compares active elements under EQ, NE, LT or LE and writes a predicate. -/
  | vcmp (a : VArgs)
  /-- VRED (R162). Reduces active elements over the fixed tree with ADD, MIN or MAX into element 0. -/
  | vred (a : VArgs)
  /-- PAND (R166). ANDs two predicates. -/
  | pand (a : VpArgs)
  /-- POR (R166). ORs two predicates. -/
  | por (a : VpArgs)
  /-- PXOR (R166). XORs two predicates. -/
  | pxor (a : VpArgs)
  /-- PNOT (R166). Inverts a predicate. -/
  | pnot (a : VpArgs)
  /-- PFIRST (R166). Keeps only the lowest set element of a predicate. -/
  | pfirst (a : VpArgs)
  /-- PCNT (R166). Counts the set elements of a predicate into an x register. -/
  | pcnt (a : VpArgs)
  /-- VWHILE (R166). Sets element i of a predicate when x[xs1] + i < x[xs2] unsigned. -/
  | vwhile (a : VpArgs)
  /-- BPANY (R167). Branches when any bit of a predicate is set. -/
  | bpany (a : SArgs)
  /-- BPNONE (R167). Branches when every bit of a predicate is clear. -/
  | bpnone (a : SArgs)
  /-- MWLOAD (R285). Queues a load of a weight tile into the shadow plane, optionally transposed or through the stationary load port. -/
  | mwload (a : EfArgs)
  /-- MZERO (R288). Queues the zeroing of an accumulator. -/
  | mzero (a : EfArgs)
  /-- MSTAT (R292). Returns a snapshot of the matrix engine state without waiting. -/
  | mstat (a : EfArgs)
  /-- MMA (R286). Queues the streaming of activation rows past the active plane into an accumulator, optionally exchanging planes first. -/
  | mma (a : EArgs)
  /-- MSTORE (R290). Queues the conversion of an accumulator into a scratchpad tile, optionally naming a barrier. -/
  | mstore (a : EArgs)
  /-- MRDROW (R289). Queues a read of one accumulator row into a vector register. -/
  | mrdrow (a : EqArgs)
  /-- MWRROW (R289). Queues a write of a vector register into one accumulator row. -/
  | mwrrow (a : EqArgs)
  /-- CPY (R305). Queues a copy of a tensor from source to destination with conversion. -/
  | cpy (a : EfArgs)
  /-- CPYW (R313). Queues a copy that writes a completion word when done. -/
  | cpyw (a : EfArgs)
  /-- CPYB (R314). Queues a copy that subtracts its bytes from a barrier object. -/
  | cpyb (a : EfArgs)
  /-- CPYS (R308). Queues a copy that decodes I4X with a scale tensor. -/
  | cpys (a : EfArgs)
  /-- CPYM (R315). Queues a copy delivered to every core named in a mask. -/
  | cpym (a : EfArgs)
  /-- CPF (R317). Queues a prefetch of a tensor's lines into the L2. -/
  | cpf (a : EfArgs)
  /-- CFILL (R318). Queues a fill of every destination element with a value. -/
  | cfill (a : EfArgs)
  /-- CPRESUME (R323). Resumes a halted copy queue from its fault prefix. -/
  | cpresume (a : EfArgs)
  /-- CPABORT (R324). Drops the faulted copy of a halted queue, with .B subtracting the remaining barrier bytes. -/
  | cpabort (a : EfArgs)
  /-- CPSTAT (R322). Returns a queue's status word or a fault record word. -/
  | cpstat (a : EfArgs)
  /-- QFENCE (R326). Waits for earlier operations of the named queues and acquires their bytes. -/
  | qfence (a : EfArgs)
  /-- BARINIT (R269). Initialises a barrier object with EXP arrivals. -/
  | barinit (a : EqArgs)
  /-- BAREXP (R269). Adds expected bytes to a barrier's PEND. -/
  | barexp (a : EqArgs)
  /-- BARARR (R270). Arrives at a barrier, returning the phase, parking when the phase waits only on bytes. -/
  | bararr (a : EqArgs)
  /-- BARWAIT (R272). Waits until the barrier phase differs from x[xs][0], as an acquire. -/
  | barwait (a : EqArgs)
  /-- BARFLG (R269). Reads and clears a barrier's flags. -/
  | barflg (a : EqArgs)
  /-- BANKFMT (R260). Sets a scratchpad bank's format register after its operations drain. -/
  | bankfmt (a : EqArgs)
  /-- SPLOCK (R263). Locks a scratchpad bank of the issuing core, waiting in arrival order. -/
  | splock (a : EqArgs)
  /-- SPUNLOCK (R263). Releases the issuer's bank lock after performing its accesses. -/
  | spunlock (a : EqArgs)
  /-- SPAWN (R237). Starts a child strand in another context of the core with copied and awaited registers. -/
  | spawn (a : RArgs)
  /-- REAP (R241). Waits for a child to end, returns its status and frees its context. -/
  | reap (a : RArgs)
  /-- YIELD (R242). Consumes the wake token or puts the strand Asleep. -/
  | yield (a : RArgs)
  /-- PARK (R244). Holds or releases other contexts of the core. -/
  | park (a : RArgs)
  /-- WAKE (R243). Wakes an Asleep strand or sets its wake token. -/
  | wake (a : RArgs)
  /-- PUTR (R333). Sends a register into a link buffer towards a register of a neighbouring core's strand. -/
  | putr (a : RArgs)
  /-- SKJOIN (R338). Adds the issuer to a skein and returns the member count. -/
  | skjoin (a : RArgs)
  /-- SKLEAVE (R338). Removes the issuer from a skein and applies the phase test. -/
  | skleave (a : RArgs)
  /-- SKBAR (R339). Arrives at a skein barrier and waits for the phase to complete. -/
  | skbar (a : RArgs)
  /-- SKQUERY (R340). Returns a skein's state. -/
  | skquery (a : RArgs)
  /-- TLAUNCH (R351). Resolves an operator's method by kinds and records a launch over an index space. -/
  | tlaunch (a : RArgs)
  /-- TWAIT (R354). Waits for a launch to complete and returns its status, freeing the record. -/
  | twait (a : RArgs)
  /-- KVSUB (R361). Registers a query slot for a page list against K and V pools. -/
  | kvsub (a : RArgs)
  /-- KVUNSUB (R370). Withdraws a query slot's undelivered pages and references and frees it. -/
  | kvunsub (a : RArgs)
  /-- KVNEXT (R368). Returns the oldest recorded delivery among the issuer's slots, or END, waiting otherwise. -/
  | kvnext (a : RArgs)
  /-- KVREL (R369). Drops the issuer's reference to a delivered buffer. -/
  | kvrel (a : RArgs)
  /-- MGALLOC (R372). Allocates a merge slot of given dimension and ordinal count. -/
  | mgalloc (a : RArgs)
  /-- MGPUT (R373). Places a partial in a merge slot's window and folds ready ordinals in order. -/
  | mgput (a : RArgs)
  /-- MGGET (R375). Waits until every ordinal is combined and writes O/L to a destination. -/
  | mgget (a : RArgs)
  /-- MGFREE (R376). Frees a merge slot, failing parked requests on it. -/
  | mgfree (a : RArgs)
  /-- L2PIN (R394). Reserves L2 ways for a virtual range in a retention slot of the die. -/
  | l2pin (a : RArgs)
  /-- L2UNPIN (R395). Releases a retention slot and clears its lines' protection. -/
  | l2unpin (a : RArgs)
  /-- L2HINT (R396). Moves a span's present L2 lines to the LRU or MRU place. -/
  | l2hint (a : RArgs)
  /-- L2FLUSH (R396). Writes back a span's dirty L2 bytes and tags, leaving lines clean. -/
  | l2flush (a : RArgs)
  /-- L2INV (R396). Writes back and invalidates a span's L2 lines, protected ones included. -/
  | l2inv (a : RArgs)
  /-- OALLOC (R437). Makes an object table entry LIVE and a root capability from a template, privileged. -/
  | oalloc (a : RArgs)
  /-- OFREE (R438). Frees an object by stepping its generation or quarantining it, privileged. -/
  | ofree (a : RArgs)
  /-- SWEEPGO (R443). Starts or records a pending Unpicker sweep and returns its number. -/
  | sweepgo (a : RArgs)
  /-- SWEEPSTAT (R443). Returns the sweep status. -/
  | sweepstat (a : RArgs)
  /-- VERSTEP (R450). Increments an object's version counter after performing earlier accesses. -/
  | verstep (a : RArgs)
  /-- LNCPY (R471). Queues a cross-card copy on the die's link engine. -/
  | lncpy (a : RArgs)
  /-- LNRED (R472). Queues a tagged two-card reduction that pairs with the peer's LNRED. -/
  | lnred (a : RArgs)
  /-- LNFENCE (R476). Waits for earlier LQ operations and acquires their bytes at FABRIC. -/
  | lnfence (a : RArgs)
  /-- LNSTAT (R477). Optionally resumes or aborts a halted LQ, then returns a selected status value. -/
  | lnstat (a : RArgs)
  /-- CSRR (R113). Reads a control register into x[rd], or a capability CSR into c registers. -/
  | csrr (a : IArgs)
  /-- CSRW (R114). Writes x[rs1] into a control register, taking effect before the next instruction. -/
  | csrw (a : IArgs)
  /-- CSRS (R114). Sets bits of a control register's RW fields. -/
  | csrs (a : IArgs)
  /-- CSRC (R114). Clears bits of a control register's RW fields. -/
  | csrc (a : IArgs)
  /-- TRET (R222). Returns from a trap handler by popping the trap frame and restoring TREP. -/
  | tret (a : IArgs)
  /-- VADD_F32_C16 (R74). 16-bit form of VADD.F32 vd, vd, vs2 under p0 or p1. -/
  | vaddF32C16 (a : C16Args)
  /-- VSUB_F32_C16 (R74). 16-bit form of VSUB.F32 vd, vd, vs2. -/
  | vsubF32C16 (a : C16Args)
  /-- VMUL_F32_C16 (R74). 16-bit form of VMUL.F32 vd, vd, vs2. -/
  | vmulF32C16 (a : C16Args)
  /-- VMIN_F32_C16 (R74). 16-bit form of VMIN.F32 vd, vd, vs2. -/
  | vminF32C16 (a : C16Args)
  /-- VMAX_F32_C16 (R74). 16-bit form of VMAX.F32 vd, vd, vs2. -/
  | vmaxF32C16 (a : C16Args)
  /-- VADD_S32_C16 (R74). 16-bit form of VADD.S32 vd, vd, vs2. -/
  | vaddS32C16 (a : C16Args)
  /-- VSUB_S32_C16 (R74). 16-bit form of VSUB.S32 vd, vd, vs2. -/
  | vsubS32C16 (a : C16Args)
  /-- VAND_C16 (R74). 16-bit form of VAND vd, vd, vs2. -/
  | vandC16 (a : C16Args)
  /-- VOR_C16 (R74). 16-bit form of VOR vd, vd, vs2. -/
  | vorC16 (a : C16Args)
  /-- VXOR_C16 (R74). 16-bit form of VXOR vd, vd, vs2. -/
  | vxorC16 (a : C16Args)
  /-- VMOV_C16 (R74). 16-bit move, equivalent to VOR vd, vs2, vs2. -/
  | vmovC16 (a : C16Args)
  /-- VNEG_F32_C16 (R74). 16-bit form of VNEG.F32 vd, vs2. -/
  | vnegF32C16 (a : C16Args)
  /-- VABS_F32_C16 (R74). 16-bit form of VABS.F32 vd, vs2. -/
  | vabsF32C16 (a : C16Args)
  /-- VMAC_F32_C16 (R74). 16-bit form of VFMA.F32 vd, vs2, v0. -/
  | vmacF32C16 (a : C16Args)
  /-- VSLL_S32_C16 (R74). 16-bit form of VSLL.S32 vd, vd, vs2. -/
  | vsllS32C16 (a : C16Args)
  /-- VCVT_BF16_F32_C16 (R74). 16-bit form of VCVT.RNE.BF16.F32 vd, vs2. -/
  | vcvtBf16F32C16 (a : C16Args)
  /-- POWER_ON_RESET (R5). Power-on reset places every field at its Reset value and leaves the device awaiting firmware. -/
  | powerOnReset
  /-- FIRMWARE_DOWNLOAD (R452). The boot ROM checks the downloaded image's signature and extends M0, or discards it. -/
  | firmwareDownload (digest : BitVec 512)
  /-- TRAP_ENTRY (R220). A fault or pending event pushes a trap frame and enters the TVEC handler as one step. -/
  | trapEntry (strand : Nat) (cause : BitVec 8) (tval tcap : Word)
  /-- INTERRUPT (R224). An interrupt from the package or fabric is taken at the next boundary with TCAUSE.INT set. -/
  | interrupt (pid : Fin 16) (code : BitVec 8)
  /-- SLOTMODE_WRITE (R234). A write of SLOTMODE is recorded to take effect at a later rotation boundary. -/
  | slotmodeWrite (core : Nat) (value : Word)
  /-- SLOTMODE_SWITCH (R234). The new slot mode takes effect at the first cycle with t mod 16 = 0 at least 4 cy after the write. -/
  | slotmodeSwitch (core : Nat)
  /-- L1CFG_WRITE (R253). A write changing NB waits for operations on the changing banks to drain. -/
  | l1cfgWrite (core : Nat) (value : Word)
  /-- L1CFG_RECONFIGURE (R253). After the drain the L1 is written back and emptied and changing banks are zeroed and unlocked. -/
  | l1cfgReconfigure (core : Nat)
  /-- MTBASE_WRITE (R341). A write of MTBASE empties the method cache of every cluster of the partition. -/
  | mtbaseWrite (pid : Fin 16) (value : Word)
  /-- LINK_ARRIVAL (R335). The head entry of a link buffer is applied to its target register once it is empty and not dropped. -/
  | linkArrival (core : Nat) (dir : Fin 2)
  /-- REGISTER_CACHE_FILL (R247). A missing register line is fetched from the strand image, evicting a victim. -/
  | registerCacheFill (strand line : Nat)
  /-- RECIPE_REPLAY (R212). A read of a dropped register replays its recipe, raising REPLAY if the replay faults. -/
  | recipeReplay (strand : Nat) (cls : Fin 2) (reg : Reg)
  /-- SYNC_TIMEOUT (R203). A full/empty request not completed 4,096 cy after issue is withdrawn and traps. -/
  | syncTimeout (strand : Nat)
  /-- LOCKHOLD (R265). A bank lock still held after 256 issues is released and the holder takes LOCKHOLD. -/
  | lockhold (core : Nat) (bank : Fin 16)
  /-- BANKFMT_APPLY (R260). Once no operation addresses the bank, BANKFMT writes BFMT, zeroing the bank when unsealing. -/
  | bankfmtApply (strand : Nat)
  /-- MATRIX_OP_START (R279). The head matrix operation starts once its start conditions hold. -/
  | matrixOpStart (core : Nat)
  /-- MATRIX_OP_COMPLETE (R280). A matrix operation completes, writing its results, merging flags and releasing at CORE. -/
  | matrixOpComplete (core : Nat)
  /-- COPY_START (R325). A copy starts or resumes, re-checking its operands' generations. -/
  | copyStart (core : Nat) (queue : Fin 4)
  /-- COPY_UNIT_DELIVER (R305). The copy engine delivers the next unit in traversal order and records progress. -/
  | copyUnitDeliver (core : Nat) (queue : Fin 4)
  /-- COPY_COMPLETE (R313). A copy completes after its last unit, writing any completion word as a release. -/
  | copyComplete (core : Nat) (queue : Fin 4)
  /-- CPF_COMPLETE (R317). A prefetch completes when every requested line is present or refused. -/
  | cpfComplete (core : Nat) (queue : Fin 4)
  /-- TASK_START (R352). The dispatcher starts a launch task in an admitted Free context. -/
  | taskStart (cluster : Nat) (slot : Fin 32) (strand : Nat)
  /-- MAILBOX_ACCEPT (R467). The dispatcher accepts the next host launch record into a launch record and advances MBHEAD. -/
  | mailboxAccept (pid : Fin 16)
  /-- KMU_PASS_START (R363). A layer pass starts with the oldest Pending slot and all Pending slots sharing its pools. -/
  | kmuPassStart (cluster : Nat)
  /-- KMU_PAGE_FETCH (R364). The KMU fetches the K and V pages of the next page of the pass once. -/
  | kmuPageFetch (cluster : Nat)
  /-- KMU_PAGE_DELIVER (R365). A fetched page is written into a free buffer of a target core and deliveries recorded. -/
  | kmuPageDeliver (cluster : Nat) (core : Fin 8)
  /-- WINDOW_ADJUST (R383). A reply arriving at a core adjusts its request window on marked or unmarked runs. -/
  | windowAdjust (core : Nat) (marked : Bool)
  /-- L2_SLICE_REQUEST (R391). A request reaches its home slice, hits or allocates and counts in its retention slot. -/
  | l2SliceRequest (pid : Fin 16) (va pa : Nat) (write : Bool)
  /-- PAGE_TABLE_WALK (R431). A TLB miss walks the three-level page table through the home slices. -/
  | pageTableWalk (pid : Fin 16) (va : Nat) (write : Bool)
  /-- GDDR7_BLOCK_WRITE (R451). The memory controller writes a block to GDDR7 with its tag and, on INTEG pages, its MAC. -/
  | gddr7BlockWrite (pid : Fin 16) (pa : Nat) (objid : BitVec 20)
  /-- GDDR7_BLOCK_READ (R451). The memory controller reads a block and verifies its MAC, raising INTEGRITY on failure. -/
  | gddr7BlockRead (strand : Nat) (pa : Nat) (objid : BitVec 20) (capReg : Reg)
  /-- SCRUB (R397). The scrubber reads a protected entry, correcting and logging correctable errors. -/
  | scrub (die : Fin 2) (correctable : Bool)
  /-- UNCORRECTABLE_ERROR (R398). An uncorrectable error invalidates a clean line or raises UE to each owning partition. -/
  | uncorrectableError (e : UeArgs)
  /-- ALLASLEEP (R403). When the all-asleep tree rises the monitor takes ALLASLEEP within 256 cy. -/
  | allasleep (pid : Fin 16)
  /-- OFREE_COMMIT (R438). After earlier accesses drain, OFREE steps or quarantines the entry and drops cached copies. -/
  | ofreeCommit (strand : Nat)
  /-- SWEEP_VISIT (R441). The Unpicker visits a location, clearing the tag of a stale capability. -/
  | sweepVisit (pid : Fin 16) (loc : SweepLoc)
  /-- SWEEP_COMPLETE (R443). A sweep completes, releases eligible QUAR entries, starts any pending sweep and raises interrupt 0x04. -/
  | sweepComplete (e : SweepEnd)
  /-- PARTITION_CREATE (R444). The physical function creates a partition through the partition manager. -/
  | partitionCreate (d : Descriptor)
  /-- PARTITION_CHANGE (R444). The physical function changes or destroys a partition's resources. -/
  | partitionChange (d : Descriptor) (destroy : Bool)
  /-- PARTITION_SWAP_OUT (R447). The partition manager stops a partition and saves its state to shadow storage and SAVEBASE. -/
  | partitionSwapOut (pid : Fin 16)
  /-- PARTITION_SWAP_IN (R447). The partition manager restores a descheduled partition and raises interrupt 0x03. -/
  | partitionSwapIn (pid : Fin 16)
  /-- THERMAL_NOTICE (R456). A cluster at 95 C raises interrupt 0x02 in every partition. -/
  | thermalNotice (cluster : Nat)
  /-- THERMAL_STOP (R456). A cluster at 110 C stops the package clocks and terminates every partition. -/
  | thermalStop (cluster : Nat)
  /-- POWER_LIMIT_STEP (R456). The power controller lowers or raises the clock in 100 MHz steps to hold the power limit. -/
  | powerLimitStep (e : PowerStep)
  /-- HOST_WRITE (R422). A host write arrives and is performed at its home, clearing the granule tag. -/
  | hostWrite (pa : BarPlace) (size : Fin 4) (value : Word)
  /-- HOST_READ (R481). A host read returns after earlier host writes on the link are performed. -/
  | hostRead (place : ReadPlace) (size : Fin 4)
  /-- CXL_MEM_REQUEST (R465). A CXL.mem request reaches the exposed partition's memory or completes unsupported. -/
  | cxlMemRequest (offset : Nat) (write : Bool) (value : Word)
  /-- HOST_LINK_TRAIN (R463). The host link trains to a PCIe 6.0 width and rate or CXL 3.1 mode. -/
  | hostLinkTrain (width : Nat) (rate : Nat) (cxl : Bool)
  /-- MBCTL_WRITE (R467). A host write of MBCTL configures the mailbox unless records are outstanding. -/
  | mbctlWrite (pid : Fin 16) (value : Word)
  /-- MBTAIL_WRITE (R466). A host write of MBTAIL posts records, or is ignored and logged on overflow. -/
  | mbtailWrite (pid : Fin 16) (value : Word)
  /-- INTREQ (R464). Writing 1 to INTREQ raises interrupt 0x10 at the monitor. -/
  | intreq (pid : Fin 16) (value : Word)
  /-- PAIRCTL_WRITE (R458). The physical function names the peer partition to request pairing. -/
  | pairctlWrite (pid : Fin 16) (pf : Bool) (value : Word)
  /-- PAIRING (R458). Pairing takes effect once both halves name each other and the Seam is up. -/
  | pairing (pid : Fin 16) (peerNames : Option (Fin 16))
  /-- HDMPART_WRITE (R465). A write of HDMPART waits for earlier CXL.mem requests to complete. -/
  | hdmpartWrite (pf : Bool) (value : Word)
  /-- HDMPART_APPLY (R465). The new CXL.mem exposure takes effect after the drain. -/
  | hdmpartApply
  /-- COREOFF_WRITE (R446). The physical function writes core offline masks effective at the next creation or swap-in. -/
  | coreoffWrite (pid : Fin 16) (pf : Bool) (index : Fin 32) (value : Byte)
  /-- DIRTYCTL_WRITE (R479). Enabling dirty tracking clears the whole bitmap. -/
  | dirtyctlWrite (pid : Fin 16) (pf : Bool) (value : Word)
  /-- DIRTYDATA_READ (R479). Reading DIRTYDATA returns and clears a bitmap word indivisibly. -/
  | dirtydataRead (pid : Fin 16) (pf : Bool)
  /-- MIGCMD_STOP (R480). MIGCMD 1 stops the partition as step 1 of a swap, or is refused. -/
  | migcmdStop (pid : Fin 16) (pf : Bool)
  /-- MIGCMD_SAVE (R480). MIGCMD 2 places the partition's saved state in shadow storage. -/
  | migcmdSave (pid : Fin 16) (pf : Bool)
  /-- MIGCMD_RESTORE (R480). MIGCMD 3 loads migrated state into the destination partition. -/
  | migcmdRestore (pid : Fin 16) (pf : Bool) (sameGeometry : MigLoad)
  /-- MIGCMD_RESUME (R480). MIGCMD 4 resumes the destination partition, continuing stopped copies. -/
  | migcmdResume (pid : Fin 16) (pf : Bool)
  /-- EVIDENCE_REQUEST (R454). A nonce written to EVID produces signed evidence for the partition. -/
  | evidenceRequest (pid : Fin 16) (nonce : BitVec 512)
  /-- KEY_IMPORT (R454). A KEYIMP request replaces the partition's data and MAC keys or is refused with a status. -/
  | keyImport (pid : Fin 16) (epoch : Word) (request : Nat)
  /-- MEASUREMENT_EXTEND (R452). A MEXT write extends one of P0-P3 with a digest. -/
  | measurementExtend (pid : Fin 16) (index : Fin 4) (digest : BitVec 512)
  /-- EVENTS_CLEAR (R485). Writing 1 to an EVENTS bit clears it and its count. -/
  | eventsClear (pid : Fin 16) (value : Word)
  /-- ADMIN_REG_WRITE (R464). A write to an administrative window register without its own row sets the field. -/
  | adminRegWrite (pid : Fin 16) (pf : Bool) (offset : Nat) (value : Word)
  /-- SEAM_TRAIN (R457). The Seam trains and card numbers are fixed from the bridge straps. -/
  | seamTrain (trained : Bool) (strap peerStrap : Bool)
  /-- FLIT_REPLAY (R459). A flit failing CRC is replayed, changing timing only. -/
  | flitReplay
  /-- SEAM_RETRAIN (R459). Eight consecutive failed replays start a retrain holding every request. -/
  | seamRetrain
  /-- SEAM_DOWN (R462). A failed retrain ends every paired partition on both cards with LINK at the monitor. -/
  | seamDown
  /-- PEER_STORE (R461). A posted store from the peer is performed at this card's home slice and acknowledged. -/
  | peerStore (die : Fin 2) (pa : Nat) (size : Fin 7) (value : PeerData)
  /-- PEER_LOAD (R461). A non-posted load from the peer is served at the home slice and completed. -/
  | peerLoad (die : Fin 2) (pa : Nat) (size : PeerRead)
  /-- PEER_ATOMIC (R461). A peer atomic is performed at the home memory controller after the line is written back. -/
  | peerAtomic (pa : Nat) (wide : PeerAtom) (op : Fin 11) (operand expected : Word)
  /-- PEER_ACKNOWLEDGE (R461). An acknowledgement of a posted peer write arrives, letting FABRIC releases proceed. -/
  | peerAcknowledge (strand : Nat)
  /-- PEER_WAKE (R243). A WAKE from the peer card acts on the named strand. -/
  | peerWake (pid : Fin 16) (strand : Nat)
  /-- PEER_OFREE_UPDATE (R438). A generation update from the peer drops the object cache entry. -/
  | peerOfreeUpdate (pid : Fin 16) (objid : BitVec 20)
  /-- PEER_INVALIDATION (R458). An invalidation from the peer drops derived TLB entries and is acknowledged. -/
  | peerInvalidation (pid : Fin 16) (pa : PeerChange)
  /-- LNCPY_UNIT_DELIVER (R471). The link engine moves the next LNCPY element and records progress. -/
  | lncpyUnitDeliver (die : Fin 2) (pid : Fin 16)
  /-- LNRED_CHUNK_SEND (R473). An LNRED half checks, reads and sends its next chunk to the partner. -/
  | lnredChunkSend (die : Fin 2) (pid : Fin 16)
  /-- LNRED_CHUNK_COMBINE (R473). Holding both copies of a chunk, a half writes their sum to its destination. -/
  | lnredChunkCombine (die : Fin 2) (pid : Fin 16) (fmt : ChunkHead) (extent : Nat) (partner : List (BitVec 32))
  /-- LNRED_PARTNER_HALT (R475). A partner's fault, abort or mismatch halts this LNRED half with its LSTAT. -/
  | lnredPartnerHalt (die : Fin 2) (pid : Fin 16) (lstat : PartnerStop)
  /-- LQ_COMPLETE (R474). A link operation completes, writing its completion word or barrier at FABRIC. -/
  | lqComplete (die : Fin 2) (pid : Fin 16)
  /-- CONTEXT_RESTART (R221). The runtime restarts a context whose strand is Stopped after a failed trap entry, which is the only way out of the Stopped state. -/
  | contextRestart (strand : Nat)
  /-- POWER_GATING (R454). A partition is power gated, which evidence reports as RUNSTATE 2 and which is not a layout change. -/
  | powerGating (pid : Fin 16) (on : Bool)
  deriving DecidableEq, Repr

end Sys2Proof
end

