-- ==== Sys2Proof/Machine/Fields.lean ====
section
/-! DEFINITION. The limits of R58 and of the function tables on the operand fields of an instruction: what check 4 of R75
asks beyond an assigned function code. A row says only what its own fields must be; the constructor has said the rest. -/

namespace Sys2Proof.Machine

/-- Whether the operand fields of an encoded instruction lie within R58, R71 and the ILLEGAL columns of Tables 2.4 to 2.9.
An event has no encoding, and its arguments have no limits beyond their types. -/
def fieldsOk (i : Instr) : Bool :=
  match i with
  | .endOfKernel => true
  | .add _ => true
  | .sub _ => true
  | .and _ => true
  | .or _ => true
  | .xor _ => true
  | .sll _ => true
  | .srl _ => true
  | .sra _ => true
  | .rol _ => true
  | .ror _ => true
  | .slt _ => true
  | .sltn _ => true
  | .min _ => true
  | .max _ => true
  | .minn _ => true
  | .maxn _ => true
  | .mul _ => true
  | .mulh _ => true
  | .mulhn _ => true
  | .div _ => true
  | .divn _ => true
  | .rem _ => true
  | .remn _ => true
  | .clz a => a.rs2 == 0
  | .ctz a => a.rs2 == 0
  | .popc a => a.rs2 == 0
  | .addi _ => true
  | .andi _ => true
  | .ori _ => true
  | .xori _ => true
  | .slli a => decide (a.imm.toNat < 64)
  | .srli a => decide (a.imm.toNat < 64)
  | .srai a => decide (a.imm.toNat < 64)
  | .slti _ => true
  | .lui _ => true
  | .fadd _ => true
  | .fsub _ => true
  | .fmul _ => true
  | .ffma _ => true
  | .fdiv _ => true
  | .fsqrt a => a.rs2 == 0
  | .fmin _ => true
  | .fmax _ => true
  | .fcmpEq _ => true
  | .fcmpLt _ => true
  | .fcmpLe _ => true
  | .fcvt a => a.dst != a.src
  | .beq _ => true
  | .bne _ => true
  | .blt _ => true
  | .bge _ => true
  | .bltn _ => true
  | .bgen _ => true
  | .jal _ => true
  | .jalc _ => true
  | .tend a => a.rd == 0 && a.rs1 == 0 && a.imm == 0
  | .ecall a => a.rd == 0 && a.rs1 == 0
  | .ebreak a => a.rd == 0 && a.rs1 == 0
  | .nop a => a.rd == 0 && a.rs1 == 0 && a.imm == 0
  | .rep a => (!a.xc || decide (a.count.val < 32))
  | .lb _ => true
  | .lh _ => true
  | .lw _ => true
  | .ld _ => true
  | .lbn _ => true
  | .lhn _ => true
  | .lwn _ => true
  | .sb _ => true
  | .sh _ => true
  | .sw _ => true
  | .sd _ => true
  | .lde _ => true
  | .ste _ => true
  | .lc a => a.pg == 0
  | .sc a => a.pg == 0
  | .vle _ => true
  | .vse _ => true
  | .vlse a => a.vs2 != 31
  | .vlxe _ => true
  | .vsxe _ => true
  | .amoadd a => decide (a.scope.val < 6)
  | .amoand a => decide (a.scope.val < 6)
  | .amoor a => decide (a.scope.val < 6)
  | .amoxor a => decide (a.scope.val < 6)
  | .amomin a => decide (a.scope.val < 6)
  | .amomax a => decide (a.scope.val < 6)
  | .amominn a => decide (a.scope.val < 6)
  | .amomaxn a => decide (a.scope.val < 6)
  | .amoswap a => decide (a.scope.val < 6)
  | .amocas a => decide (a.scope.val < 6)
  | .amofadd a => decide (a.scope.val < 6)
  | .ldAcq a => decide (a.scope.val < 6) && a.ord == 1 && a.rs2 == 0
  | .stRel a => decide (a.scope.val < 6) && a.ord == 2 && a.rd == 0
  | .fence a => decide (a.scope.val < 6) && a.ord != 0 && a.rd == 0 && a.cs == 0 && a.rs2 == 0
  | .lds _ => true
  | .sts _ => true
  | .ldf _ => true
  | .setfe _ => true
  | .waita _ => true
  | .movg a => decide (a.rd.val < 16) && a.rs2 == 0
  | .movfg a => decide (a.rs1.val < 16) && a.rs2 == 0
  | .rdef a => a.rd == 0 && decide (a.rs1.val < 8) && a.rs2 != 0 && decide (a.rs2.val < 5) && !a.sr
  | .rtag a => decide (a.rs1.val < 8) && decide (a.rs2.val < 2) && !a.sr
  | .rdrop a => a.rs1 == 0 && decide (a.rs2.val < 2) && !a.sr
  | .rpin a => decide (a.rs1.val < 8) && decide (a.rs2.val < 2) && !a.sr
  | .rinv a => a.rd == 0 && decide (a.rs1.val < 8) && a.rs2 == 0 && !a.sr
  | .cslice _ => true
  | .cstep _ => true
  | .cflip _ => true
  | .cperm _ => true
  | .csplit _ => true
  | .cmerge _ => true
  | .cfix _ => true
  | .cbcast _ => true
  | .candp _ => true
  | .creach _ => true
  | .cretag _ => true
  | .cmove a => a.rs2 == 0
  | .cclear a => a.rs2 == 0
  | .cgetf _ => true
  | .ctest a => a.rs2 == 0
  | .csubset _ => true
  | .ceq _ => true
  | .cbind _ => true
  | .cunbind _ => true
  | .ccall a => a.rd == 0
  | .cret a => a.rd == 0 && a.rs1 == 0 && a.rs2 == 0 && !a.sr
  | .ckey a => a.rs2 == 0
  | .vadd _ => true
  | .vsub _ => true
  | .vmul _ => true
  | .vfma a => a.f2 != 3
  | .vfms a => a.f2 != 3
  | .vdiv a => a.f2 != 3
  | .vmin _ => true
  | .vmax _ => true
  | .vsqrt a => a.f2 != 3
  | .vrsq a => a.f2 != 3
  | .vrcp a => a.f2 != 3
  | .vabs _ => true
  | .vneg _ => true
  | .vexp a => a.f2 == 0
  | .vexp2 a => a.f2 == 0
  | .vlog2 a => a.f2 == 0
  | .vdot a => a.f2 != 0
  | .vsll _ => true
  | .vsrl _ => true
  | .vsra _ => true
  | .vand _ => true
  | .vor _ => true
  | .vxor _ => true
  | .vsel _ => true
  | .vcvt a => decide (a.vs2.val < 20)
  | .vcvtSat a => decide (a.vs2.val < 20)
  | .vperm _ => true
  | .vslide _ => true
  | .vbcast _ => true
  | .vmovx _ => true
  | .viota a => a.vs1 == 0
  | .vcmp _ => true
  | .vred a => decide (a.vs2.val < 3)
  | .pand a => decide (a.vd.val < 8) && decide (a.vs1.val < 8) && decide (a.vs2.val < 8) && a.f2 == 0
  | .por a => decide (a.vd.val < 8) && decide (a.vs1.val < 8) && decide (a.vs2.val < 8) && a.f2 == 0
  | .pxor a => decide (a.vd.val < 8) && decide (a.vs1.val < 8) && decide (a.vs2.val < 8) && a.f2 == 0
  | .pnot a => decide (a.vd.val < 8) && decide (a.vs1.val < 8) && a.vs2 == 0 && a.f2 == 0
  | .pfirst a => decide (a.vd.val < 8) && decide (a.vs1.val < 8) && a.vs2 == 0
  | .pcnt a => decide (a.vs1.val < 8) && a.vs2 == 0
  | .vwhile a => decide (a.vd.val < 8)
  | .bpany a => decide (a.rs1.val < 8) && a.rs2 == 0
  | .bpnone a => decide (a.rs1.val < 8) && a.rs2 == 0
  | .mwload a => a.cb == 0 && a.xc == 0 && decide (a.q.val < 4)
  | .mzero a => a.ca == 0 && a.cb == 0 && a.xc == 0 && decide (a.q.val < 4)
  | .mstat a => a.ca == 0 && a.cb == 0 && a.q == 0
  | .mma a => decide (a.cb.val < 8) && a.q == 0
  | .mstore a => a.cb == 0 && a.xc == 0
  | .mrdrow a => a.ca == 0
  | .mwrrow a => a.ca == 0
  | .cpy a => decide (a.q.val < 4)
  | .cpyw a => decide (a.q.val < 4) && a.cb != 31
  | .cpyb a => decide (a.q.val < 4) && a.cb != 31
  | .cpys a => decide (a.q.val < 4) && a.cb != 31
  | .cpym a => decide (a.q.val < 4)
  | .cpf a => decide (a.q.val < 4) && a.ca == 0
  | .cfill a => decide (a.q.val < 4) && a.cb == 0
  | .cpresume a => decide (a.q.val < 4) && a.ca == 0 && a.cb == 0 && a.xc == 0
  | .cpabort a => decide (a.q.val < 4) && decide (a.ca.val < 2) && a.cb == 0 && a.xc == 0
  | .cpstat a => decide (a.q.val < 4) && a.ca == 0 && a.cb == 0
  | .qfence a => a.ca == 0 && a.xc == 0 && a.q == 0
  | .barinit a => a.cb == 0 && a.f2 == 0
  | .barexp a => a.cb == 0 && a.f2 == 0
  | .bararr a => a.cb == 0 && a.f2 == 0
  | .barwait a => a.cb == 0 && a.f2 == 0
  | .barflg a => a.cb == 0 && a.f2 == 0
  | .bankfmt a => a.cb == 0 && a.f2 == 0
  | .splock a => a.cb == 0 && a.f2 == 0 && a.xc == 0
  | .spunlock a => a.cb == 0 && a.f2 == 0 && a.xc == 0
  | .spawn _ => true
  | .reap a => a.rs2 == 0
  | .yield a => a.rd == 0 && a.rs1 == 0 && a.rs2 == 0 && !a.sr
  | .park a => a.rs2 == 0
  | .wake a => a.rs2 == 0
  | .putr a => decide (a.rd.val < 8) && decide (a.rd.val % 4 < 3)
  | .skjoin a => a.rs2 == 0
  | .skleave a => a.rs2 == 0
  | .skbar a => a.rs2 == 0
  | .skquery a => a.rs2 == 0
  | .tlaunch _ => true
  | .twait a => a.rs2 == 0 && !a.sr
  | .kvsub _ => true
  | .kvunsub a => a.rd == 0 && a.rs2 == 0
  | .kvnext a => a.rs1 == 0 && a.rs2 == 0 && !a.sr
  | .kvrel a => a.rd == 0 && a.rs2 == 0
  | .mgalloc a => a.rs2 == 0
  | .mgput _ => true
  | .mgget _ => true
  | .mgfree a => a.rd == 0 && a.rs2 == 0
  | .l2pin _ => true
  | .l2unpin a => a.rs2 == 0
  | .l2hint a => a.rd == 0
  | .l2flush a => a.rd == 0 && a.rs2 == 0
  | .l2inv a => a.rd == 0 && a.rs2 == 0
  | .oalloc _ => true
  | .ofree a => a.rd == 0 && a.rs2 == 0
  | .sweepgo a => a.rs1 == 0 && a.rs2 == 0 && !a.sr
  | .sweepstat a => a.rs1 == 0 && a.rs2 == 0 && !a.sr
  | .verstep a => a.rd == 0 && a.rs2 == 0
  | .lncpy _ => true
  | .lnred _ => true
  | .lnfence a => a.rd == 0 && a.rs1 == 0 && a.rs2 == 0 && !a.sr
  | .lnstat a => a.rs2 == 0
  | .csrr a => a.rs1 == 0
  | .csrw a => a.rd == 0
  | .csrs a => a.rd == 0
  | .csrc a => a.rd == 0
  | .tret a => a.rd == 0 && a.rs1 == 0 && a.imm == 0
  | .vaddF32C16 a => (a.p1 || a.vd != 0 || a.vs2 != 0)
  | .vsubF32C16 _ => true
  | .vmulF32C16 _ => true
  | .vminF32C16 _ => true
  | .vmaxF32C16 _ => true
  | .vaddS32C16 _ => true
  | .vsubS32C16 _ => true
  | .vandC16 _ => true
  | .vorC16 _ => true
  | .vxorC16 _ => true
  | .vmovC16 _ => true
  | .vnegF32C16 _ => true
  | .vabsF32C16 _ => true
  | .vmacF32C16 _ => true
  | .vsllS32C16 _ => true
  | .vcvtBf16F32C16 _ => true
  | .powerOnReset => true
  | .firmwareDownload _ => true
  | .trapEntry _ _ _ _ => true
  | .interrupt _ _ => true
  | .slotmodeWrite _ _ => true
  | .slotmodeSwitch _ => true
  | .l1cfgWrite _ _ => true
  | .l1cfgReconfigure _ => true
  | .mtbaseWrite _ _ => true
  | .linkArrival _ _ => true
  | .registerCacheFill _ _ => true
  | .recipeReplay _ _ _ => true
  | .syncTimeout _ => true
  | .lockhold _ _ => true
  | .bankfmtApply _ => true
  | .matrixOpStart _ => true
  | .matrixOpComplete _ => true
  | .copyStart _ _ => true
  | .copyUnitDeliver _ _ => true
  | .copyComplete _ _ => true
  | .cpfComplete _ _ => true
  | .taskStart _ _ _ => true
  | .mailboxAccept _ => true
  | .kmuPassStart _ => true
  | .kmuPageFetch _ => true
  | .kmuPageDeliver _ _ => true
  | .windowAdjust _ _ => true
  | .l2SliceRequest _ _ _ _ => true
  | .pageTableWalk _ _ _ => true
  | .gddr7BlockWrite _ _ _ => true
  | .gddr7BlockRead _ _ _ _ => true
  | .scrub _ _ => true
  | .uncorrectableError _ => true
  | .allasleep _ => true
  | .ofreeCommit _ => true
  | .sweepVisit _ _ => true
  | .sweepComplete _ => true
  | .partitionCreate _ => true
  | .partitionChange _ _ => true
  | .partitionSwapOut _ => true
  | .partitionSwapIn _ => true
  | .thermalNotice _ => true
  | .thermalStop _ => true
  | .powerLimitStep _ => true
  | .hostWrite _ _ _ => true
  | .hostRead _ _ => true
  | .cxlMemRequest _ _ _ => true
  | .hostLinkTrain _ _ _ => true
  | .mbctlWrite _ _ => true
  | .mbtailWrite _ _ => true
  | .intreq _ _ => true
  | .pairctlWrite _ _ _ => true
  | .pairing _ _ => true
  | .hdmpartWrite _ _ => true
  | .hdmpartApply => true
  | .coreoffWrite _ _ _ _ => true
  | .dirtyctlWrite _ _ _ => true
  | .dirtydataRead _ _ => true
  | .migcmdStop _ _ => true
  | .migcmdSave _ _ => true
  | .migcmdRestore _ _ _ => true
  | .migcmdResume _ _ => true
  | .evidenceRequest _ _ => true
  | .keyImport _ _ _ => true
  | .measurementExtend _ _ _ => true
  | .eventsClear _ _ => true
  | .adminRegWrite _ _ _ _ => true
  | .seamTrain _ _ _ => true
  | .flitReplay => true
  | .seamRetrain => true
  | .seamDown => true
  | .peerStore _ _ _ _ => true
  | .peerLoad _ _ _ => true
  | .peerAtomic _ _ _ _ _ => true
  | .peerAcknowledge _ => true
  | .peerWake _ _ => true
  | .peerOfreeUpdate _ _ => true
  | .peerInvalidation _ _ => true
  | .lncpyUnitDeliver _ _ => true
  | .lnredChunkSend _ _ => true
  | .lnredChunkCombine _ _ _ _ _ => true
  | .lnredPartnerHalt _ _ _ => true
  | .lqComplete _ _ => true
  | .contextRestart _ => true
  | .powerGating _ _ => true

end Sys2Proof.Machine
end

