-- ==== Sys2Proof/WellFormed.lean ====
section
/-! DEFINITION. Which terms of `Instr` are instructions the LK-910 executes rather than rejects at check 4 of R75. -/

namespace Sys2Proof

/-- A well-formed instruction: every operand field within its limits (R58, R75). The limits themselves are in
Machine/Fields.lean. -/
def Instr.WellFormed (i : Instr) : Bool := Machine.fieldsOk i

end Sys2Proof
end

