-- ==== Sys2Proof/Decode.lean ====
section
/-! DEFINITION. Decoding (R54 to R60, R69, R74 to R79) and, after it, the encoder. A word is a natural number whose bit 0 is bit
0 of the halfword at the lower address; fields are taken out by division, so that arithmetic decides every question about them. -/

namespace Sys2Proof

/-- The `n` bits of `w` from bit `lo` up. -/
def bitsAt (w lo n : Nat) : Nat := w / 2 ^ lo % 2 ^ n

/-- The 5-bit register field whose lowest bit is `lo`. -/
def regAt (w lo : Nat) : Reg := Fin.ofNat 32 (w / 2 ^ lo)

/-- The one-bit field at `lo`. -/
def flagAt (w lo : Nat) : Bool := w / 2 ^ lo % 2 == 1

/-- The 2-bit field whose lowest bit is `lo`. -/
def twoAt (w lo : Nat) : Fin 4 := Fin.ofNat 4 (w / 2 ^ lo)

/-- The 3-bit field whose lowest bit is `lo`. -/
def threeAt (w lo : Nat) : Fin 8 := Fin.ofNat 8 (w / 2 ^ lo)

/-- The major opcode, bits [6:1] (R56). -/
def majorOf (w : Nat) : Nat := bitsAt w 1 6

/-- Table 2.1, format R. -/
def rArgs (w : Nat) : RArgs :=
  { rd := regAt w 9, rs1 := regAt w 14, rs2 := regAt w 19, sr := flagAt w 24, h := twoAt w 29, sc := twoAt w 7 }

/-- Format R under a floating-point type. -/
def fArgs (ty : FTy) (w : Nat) : FArgs :=
  { ty := ty, rd := regAt w 9, rs1 := regAt w 14, rs2 := regAt w 19, sr := flagAt w 24, h := twoAt w 29, sc := twoAt w 7 }

/-- FCVT's fields (Table 2.6, major 0x07). -/
def cvtArgs (w : Nat) : CvtArgs :=
  { dst := twoAt w 27, src := twoAt w 25, rd := regAt w 9, rs1 := regAt w 14, rm := twoAt w 19, sat := flagAt w 21,
    sr := flagAt w 24, h := twoAt w 29, sc := twoAt w 7 }

/-- Table 2.1, format I. -/
def iArgs (w : Nat) : IArgs :=
  { rd := regAt w 9, rs1 := regAt w 14, imm := BitVec.ofNat 10 (w / 2 ^ 22), sc := twoAt w 7 }

/-- Table 2.1, formats S and B: the immediate is {[31:27], [13:9]} (R57). -/
def sArgs (w : Nat) : SArgs :=
  { rs1 := regAt w 14, rs2 := regAt w 19, imm := BitVec.ofNat 10 (bitsAt w 27 5 * 32 + bitsAt w 9 5), sc := twoAt w 7 }

/-- Table 2.1, format U. -/
def uArgs (w : Nat) : UArgs := { rd := regAt w 9, imm := BitVec.ofNat 18 (w / 2 ^ 14), sc := twoAt w 7 }

/-- Table 2.1, format J. -/
def jArgs (w : Nat) : JArgs := { off := BitVec.ofNat 23 (w / 2 ^ 9), sc := twoAt w 7 }

/-- Table 2.4. -/
def repArgs (w : Nat) : RepArgs :=
  { ostep := BitVec.ofNat 9 (w / 2 ^ 23), s2 := flagAt w 22, s1 := flagAt w 21, sd := flagAt w 20,
    count := Fin.ofNat 1024 (w / 2 ^ 10), xc := flagAt w 9, sc := twoAt w 7 }

/-- Table 2.1, format M. -/
def mArgs (w : Nat) : MArgs :=
  { rd := regAt w 9, cs := regAt w 14, xi := regAt w 19, xj := regAt w 24, h0 := flagAt w 30, sc := twoAt w 7 }

/-- Table 2.1, format A; ORD is {major - 0x14, bit 31} (R78). -/
def aArgs (w : Nat) : AArgs :=
  { rd := regAt w 9, cs := regAt w 14, rs2 := regAt w 19, scope := threeAt w 28,
    ord := Fin.ofNat 4 ((majorOf w - 0x14) * 2 + w / 2 ^ 31 % 2), sc := twoAt w 7 }

/-- Table 2.1, format V. -/
def vArgs (w : Nat) : VArgs :=
  { vd := regAt w 9, vs1 := regAt w 14, vs2 := regAt w 19, pg := threeAt w 24, f2 := twoAt w 27, h := twoAt w 29,
    sc := twoAt w 7 }

/-- Format V where f2 is the function. -/
def vfArgs (w : Nat) : VfArgs :=
  { vd := regAt w 9, vs1 := regAt w 14, vs2 := regAt w 19, pg := threeAt w 24, h := twoAt w 29, sc := twoAt w 7 }

/-- Format V where vs2 is the sub-operation. -/
def vuArgs (w : Nat) : VuArgs :=
  { vd := regAt w 9, vs1 := regAt w 14, pg := threeAt w 24, f2 := twoAt w 27, h := twoAt w 29, sc := twoAt w 7 }

/-- Format V where pg is the sub-operation. -/
def vpArgs (w : Nat) : VpArgs :=
  { vd := regAt w 9, vs1 := regAt w 14, vs2 := regAt w 19, f2 := twoAt w 27, h := twoAt w 29, sc := twoAt w 7 }

/-- Table 2.1, format E. -/
def eArgs (w : Nat) : EArgs :=
  { ca := regAt w 9, cb := regAt w 14, xc := regAt w 19, q := threeAt w 24, f2 := twoAt w 27, h := twoAt w 29,
    sc := twoAt w 7 }

/-- Format E where f2 is the function. -/
def efArgs (w : Nat) : EfArgs :=
  { ca := regAt w 9, cb := regAt w 14, xc := regAt w 19, q := threeAt w 24, h := twoAt w 29, sc := twoAt w 7 }

/-- Format E where q is the function. -/
def eqArgs (w : Nat) : EqArgs :=
  { ca := regAt w 9, cb := regAt w 14, xc := regAt w 19, f2 := twoAt w 27, h := twoAt w 29, sc := twoAt w 7 }

/-- R74: a 16-bit lane operation. -/
def c16Args (w : Nat) : C16Args :=
  { vd := regAt w 5, vs2 := regAt w 10, p1 := flagAt w 15 }

/-- Major 0x00. -/
def parse00 (w : Nat) : Option Instr :=
  match bitsAt w 25 4 with
  | 0 => some (.add (rArgs w))
  | 1 => some (.sub (rArgs w))
  | 2 => some (.and (rArgs w))
  | 3 => some (.or (rArgs w))
  | 4 => some (.xor (rArgs w))
  | 5 => some (.sll (rArgs w))
  | 6 => some (.srl (rArgs w))
  | 7 => some (.sra (rArgs w))
  | 8 => some (.rol (rArgs w))
  | 9 => some (.ror (rArgs w))
  | 10 => some (.slt (rArgs w))
  | 11 => some (.sltn (rArgs w))
  | 12 => some (.min (rArgs w))
  | 13 => some (.max (rArgs w))
  | 14 => some (.minn (rArgs w))
  | 15 => some (.maxn (rArgs w))
  | _ => none

/-- Major 0x01. -/
def parse01 (w : Nat) : Option Instr :=
  match bitsAt w 25 4 with
  | 0 => some (.mul (rArgs w))
  | 1 => some (.mulh (rArgs w))
  | 2 => some (.mulhn (rArgs w))
  | 3 => some (.div (rArgs w))
  | 4 => some (.divn (rArgs w))
  | 5 => some (.rem (rArgs w))
  | 6 => some (.remn (rArgs w))
  | 7 => some (.clz (rArgs w))
  | 8 => some (.ctz (rArgs w))
  | 9 => some (.popc (rArgs w))
  | _ => none

/-- Major 0x02. -/
def parse02 (w : Nat) : Option Instr :=
  match bitsAt w 19 3 with
  | 0 => some (.addi (iArgs w))
  | 1 => some (.andi (iArgs w))
  | 2 => some (.ori (iArgs w))
  | 3 => some (.xori (iArgs w))
  | 4 => some (.slli (iArgs w))
  | 5 => some (.srli (iArgs w))
  | 6 => some (.srai (iArgs w))
  | 7 => some (.slti (iArgs w))
  | _ => none

/-- Major 0x03. -/
def parse03 (w : Nat) : Option Instr := some (.lui (uArgs w))

/-- Majors 0x04 to 0x06: the function field chooses the operation, the major has chosen the type. -/
def parse04 (ty : FTy) (w : Nat) : Option Instr :=
  match bitsAt w 25 4 with
  | 0 => some (.fadd (fArgs ty w))
  | 1 => some (.fsub (fArgs ty w))
  | 2 => some (.fmul (fArgs ty w))
  | 3 => some (.ffma (fArgs ty w))
  | 4 => some (.fdiv (fArgs ty w))
  | 5 => some (.fsqrt (fArgs ty w))
  | 6 => some (.fmin (fArgs ty w))
  | 7 => some (.fmax (fArgs ty w))
  | 8 => some (.fcmpEq (fArgs ty w))
  | 9 => some (.fcmpLt (fArgs ty w))
  | 10 => some (.fcmpLe (fArgs ty w))
  | _ => none

/-- Major 0x07: bits [23:22] of the rs2 field are zero. -/
def parse07 (w : Nat) : Option Instr :=
  if bitsAt w 22 2 = 0 then some (.fcvt (cvtArgs w)) else none

/-- Major 0x08. -/
def parse08 (w : Nat) : Option Instr :=
  match bitsAt w 24 3 with
  | 0 => some (.beq (sArgs w))
  | 1 => some (.bne (sArgs w))
  | 2 => some (.blt (sArgs w))
  | 3 => some (.bge (sArgs w))
  | 4 => some (.bltn (sArgs w))
  | 5 => some (.bgen (sArgs w))
  | _ => none

/-- Major 0x09. -/
def parse09 (w : Nat) : Option Instr := some (.jal (jArgs w))

/-- Major 0x0A. -/
def parse0A (w : Nat) : Option Instr :=
  match bitsAt w 19 3 with
  | 0 => some (.jalc (iArgs w))
  | 1 => some (.tend (iArgs w))
  | 2 => some (.ecall (iArgs w))
  | 3 => some (.ebreak (iArgs w))
  | 4 => some (.nop (iArgs w))
  | _ => none

/-- Major 0x0B. -/
def parse0B (w : Nat) : Option Instr := some (.rep (repArgs w))

/-- Major 0x0C. -/
def parse0C (w : Nat) : Option Instr :=
  match bitsAt w 19 3 with
  | 0 => some (.lb (iArgs w))
  | 1 => some (.lh (iArgs w))
  | 2 => some (.lw (iArgs w))
  | 3 => some (.ld (iArgs w))
  | 4 => some (.lbn (iArgs w))
  | 5 => some (.lhn (iArgs w))
  | 6 => some (.lwn (iArgs w))
  | _ => none

/-- Major 0x0D. -/
def parse0D (w : Nat) : Option Instr :=
  match bitsAt w 24 3 with
  | 0 => some (.sb (sArgs w))
  | 1 => some (.sh (sArgs w))
  | 2 => some (.sw (sArgs w))
  | 3 => some (.sd (sArgs w))
  | _ => none

/-- Major 0x10. -/
def parse10 (w : Nat) : Option Instr :=
  match bitsAt w 29 1 with
  | 0 => some (.lde (mArgs w))
  | 1 => some (.ste (mArgs w))
  | _ => none

/-- Major 0x11. -/
def parse11 (w : Nat) : Option Instr :=
  match bitsAt w 27 2 with
  | 0 => some (.lc (vfArgs w))
  | 1 => some (.sc (vfArgs w))
  | _ => none

/-- Major 0x12. -/
def parse12 (w : Nat) : Option Instr :=
  match bitsAt w 27 2 with
  | 0 => some (.vle (vfArgs w))
  | 1 => some (.vse (vfArgs w))
  | 2 => some (.vlse (vfArgs w))
  | _ => none

/-- Major 0x13. -/
def parse13 (w : Nat) : Option Instr :=
  match bitsAt w 27 2 with
  | 0 => some (.vlxe (vfArgs w))
  | 1 => some (.vsxe (vfArgs w))
  | _ => none

/-- Majors 0x14 and 0x15 (Table 2.7). -/
def parse14 (w : Nat) : Option Instr :=
  match bitsAt w 24 4 with
  | 0 => some (.amoadd (aArgs w))
  | 1 => some (.amoand (aArgs w))
  | 2 => some (.amoor (aArgs w))
  | 3 => some (.amoxor (aArgs w))
  | 4 => some (.amomin (aArgs w))
  | 5 => some (.amomax (aArgs w))
  | 6 => some (.amominn (aArgs w))
  | 7 => some (.amomaxn (aArgs w))
  | 8 => some (.amoswap (aArgs w))
  | 9 => some (.amocas (aArgs w))
  | 10 => some (.amofadd (aArgs w))
  | 11 => some (.ldAcq (aArgs w))
  | 12 => some (.stRel (aArgs w))
  | 13 => some (.fence (aArgs w))
  | _ => none

/-- Major 0x16. -/
def parse16 (w : Nat) : Option Instr :=
  match bitsAt w 25 4 with
  | 0 => some (.lds (rArgs w))
  | 1 => some (.sts (rArgs w))
  | 2 => some (.ldf (rArgs w))
  | 3 => some (.setfe (rArgs w))
  | 4 => some (.waita (rArgs w))
  | 5 => some (.movg (rArgs w))
  | 6 => some (.movfg (rArgs w))
  | _ => none

/-- Major 0x17. -/
def parse17 (w : Nat) : Option Instr :=
  match bitsAt w 25 4 with
  | 0 => some (.rdef (rArgs w))
  | 1 => some (.rtag (rArgs w))
  | 2 => some (.rdrop (rArgs w))
  | 3 => some (.rpin (rArgs w))
  | 4 => some (.rinv (rArgs w))
  | _ => none

/-- Major 0x18. -/
def parse18 (w : Nat) : Option Instr :=
  match bitsAt w 25 4 with
  | 0 => some (.cslice (rArgs w))
  | 1 => some (.cstep (rArgs w))
  | 2 => some (.cflip (rArgs w))
  | 3 => some (.cperm (rArgs w))
  | 4 => some (.csplit (rArgs w))
  | 5 => some (.cmerge (rArgs w))
  | 6 => some (.cfix (rArgs w))
  | 7 => some (.cbcast (rArgs w))
  | 8 => some (.candp (rArgs w))
  | 9 => some (.creach (rArgs w))
  | 10 => some (.cretag (rArgs w))
  | 11 => some (.cmove (rArgs w))
  | 12 => some (.cclear (rArgs w))
  | _ => none

/-- Major 0x19. -/
def parse19 (w : Nat) : Option Instr :=
  match bitsAt w 25 4 with
  | 0 => some (.cgetf (rArgs w))
  | 1 => some (.ctest (rArgs w))
  | 2 => some (.csubset (rArgs w))
  | 3 => some (.ceq (rArgs w))
  | 4 => some (.cbind (rArgs w))
  | 5 => some (.cunbind (rArgs w))
  | 6 => some (.ccall (rArgs w))
  | 7 => some (.cret (rArgs w))
  | 8 => some (.ckey (rArgs w))
  | _ => none

/-- Major 0x20. -/
def parse20 (w : Nat) : Option Instr := some (.vadd (vArgs w))

/-- Major 0x21. -/
def parse21 (w : Nat) : Option Instr := some (.vsub (vArgs w))

/-- Major 0x22. -/
def parse22 (w : Nat) : Option Instr := some (.vmul (vArgs w))

/-- Major 0x23. -/
def parse23 (w : Nat) : Option Instr := some (.vfma (vArgs w))

/-- Major 0x24. -/
def parse24 (w : Nat) : Option Instr := some (.vfms (vArgs w))

/-- Major 0x25. -/
def parse25 (w : Nat) : Option Instr := some (.vdiv (vArgs w))

/-- Major 0x26. -/
def parse26 (w : Nat) : Option Instr := some (.vmin (vArgs w))

/-- Major 0x27. -/
def parse27 (w : Nat) : Option Instr := some (.vmax (vArgs w))

/-- Major 0x28. -/
def parse28 (w : Nat) : Option Instr :=
  match bitsAt w 19 5 with
  | 0 => some (.vsqrt (vuArgs w))
  | 1 => some (.vrsq (vuArgs w))
  | 2 => some (.vrcp (vuArgs w))
  | 3 => some (.vabs (vuArgs w))
  | 4 => some (.vneg (vuArgs w))
  | 5 => some (.vexp (vuArgs w))
  | 6 => some (.vexp2 (vuArgs w))
  | 7 => some (.vlog2 (vuArgs w))
  | _ => none

/-- Major 0x29. -/
def parse29 (w : Nat) : Option Instr := some (.vdot (vArgs w))

/-- Major 0x2A. -/
def parse2A (w : Nat) : Option Instr :=
  match bitsAt w 27 2 with
  | 0 => some (.vsll (vfArgs w))
  | 1 => some (.vsrl (vfArgs w))
  | 2 => some (.vsra (vfArgs w))
  | _ => none

/-- Major 0x2B. -/
def parse2B (w : Nat) : Option Instr :=
  match bitsAt w 27 2 with
  | 0 => some (.vand (vfArgs w))
  | 1 => some (.vor (vfArgs w))
  | 2 => some (.vxor (vfArgs w))
  | 3 => some (.vsel (vfArgs w))
  | _ => none

/-- Major 0x2C. -/
def parse2C (w : Nat) : Option Instr := some (.vcvt (vArgs w))

/-- Major 0x2D. -/
def parse2D (w : Nat) : Option Instr := some (.vcvtSat (vArgs w))

/-- Major 0x2E. -/
def parse2E (w : Nat) : Option Instr := some (.vperm (vArgs w))

/-- Major 0x2F. -/
def parse2F (w : Nat) : Option Instr :=
  match bitsAt w 19 5 with
  | 0 => some (.vslide (vuArgs w))
  | 1 => some (.vbcast (vuArgs w))
  | 2 => some (.vmovx (vuArgs w))
  | 3 => some (.viota (vuArgs w))
  | _ => none

/-- Major 0x30. -/
def parse30 (w : Nat) : Option Instr := some (.vcmp (vArgs w))

/-- Major 0x31. -/
def parse31 (w : Nat) : Option Instr := some (.vred (vArgs w))

/-- Major 0x32. -/
def parse32 (w : Nat) : Option Instr :=
  match bitsAt w 24 3 with
  | 0 => some (.pand (vpArgs w))
  | 1 => some (.por (vpArgs w))
  | 2 => some (.pxor (vpArgs w))
  | 3 => some (.pnot (vpArgs w))
  | 4 => some (.pfirst (vpArgs w))
  | 5 => some (.pcnt (vpArgs w))
  | 6 => some (.vwhile (vpArgs w))
  | _ => none

/-- Major 0x33. -/
def parse33 (w : Nat) : Option Instr :=
  match bitsAt w 24 3 with
  | 0 => some (.bpany (sArgs w))
  | 1 => some (.bpnone (sArgs w))
  | _ => none

/-- Major 0x34. -/
def parse34 (w : Nat) : Option Instr :=
  match bitsAt w 27 2 with
  | 0 => some (.mwload (efArgs w))
  | 1 => some (.mzero (efArgs w))
  | 2 => some (.mstat (efArgs w))
  | _ => none

/-- Major 0x35. -/
def parse35 (w : Nat) : Option Instr := some (.mma (eArgs w))

/-- Major 0x36. -/
def parse36 (w : Nat) : Option Instr := some (.mstore (eArgs w))

/-- Major 0x37. -/
def parse37 (w : Nat) : Option Instr :=
  match bitsAt w 24 3 with
  | 0 => some (.mrdrow (eqArgs w))
  | 1 => some (.mwrrow (eqArgs w))
  | _ => none

/-- Major 0x38. -/
def parse38 (w : Nat) : Option Instr :=
  match bitsAt w 27 2 with
  | 0 => some (.cpy (efArgs w))
  | 1 => some (.cpyw (efArgs w))
  | 2 => some (.cpyb (efArgs w))
  | 3 => some (.cpys (efArgs w))
  | _ => none

/-- Major 0x39. -/
def parse39 (w : Nat) : Option Instr :=
  match bitsAt w 27 2 with
  | 0 => some (.cpym (efArgs w))
  | 1 => some (.cpf (efArgs w))
  | 2 => some (.cfill (efArgs w))
  | _ => none

/-- Major 0x3A. -/
def parse3A (w : Nat) : Option Instr :=
  match bitsAt w 27 2 with
  | 0 => some (.cpresume (efArgs w))
  | 1 => some (.cpabort (efArgs w))
  | 2 => some (.cpstat (efArgs w))
  | 3 => some (.qfence (efArgs w))
  | _ => none

/-- Major 0x3B. -/
def parse3B (w : Nat) : Option Instr :=
  match bitsAt w 24 3 with
  | 0 => some (.barinit (eqArgs w))
  | 1 => some (.barexp (eqArgs w))
  | 2 => some (.bararr (eqArgs w))
  | 3 => some (.barwait (eqArgs w))
  | 4 => some (.barflg (eqArgs w))
  | 5 => some (.bankfmt (eqArgs w))
  | 6 => some (.splock (eqArgs w))
  | 7 => some (.spunlock (eqArgs w))
  | _ => none

/-- Major 0x3C. -/
def parse3C (w : Nat) : Option Instr :=
  match bitsAt w 25 4 with
  | 0 => some (.spawn (rArgs w))
  | 1 => some (.reap (rArgs w))
  | 2 => some (.yield (rArgs w))
  | 3 => some (.park (rArgs w))
  | 4 => some (.wake (rArgs w))
  | 5 => some (.putr (rArgs w))
  | 6 => some (.skjoin (rArgs w))
  | 7 => some (.skleave (rArgs w))
  | 8 => some (.skbar (rArgs w))
  | 9 => some (.skquery (rArgs w))
  | 10 => some (.tlaunch (rArgs w))
  | 11 => some (.twait (rArgs w))
  | _ => none

/-- Major 0x3D. -/
def parse3D (w : Nat) : Option Instr :=
  match bitsAt w 25 4 with
  | 0 => some (.kvsub (rArgs w))
  | 1 => some (.kvunsub (rArgs w))
  | 2 => some (.kvnext (rArgs w))
  | 3 => some (.kvrel (rArgs w))
  | 4 => some (.mgalloc (rArgs w))
  | 5 => some (.mgput (rArgs w))
  | 6 => some (.mgget (rArgs w))
  | 7 => some (.mgfree (rArgs w))
  | _ => none

/-- Major 0x3E. -/
def parse3E (w : Nat) : Option Instr :=
  match bitsAt w 25 4 with
  | 0 => some (.l2pin (rArgs w))
  | 1 => some (.l2unpin (rArgs w))
  | 2 => some (.l2hint (rArgs w))
  | 3 => some (.l2flush (rArgs w))
  | 4 => some (.l2inv (rArgs w))
  | 5 => some (.oalloc (rArgs w))
  | 6 => some (.ofree (rArgs w))
  | 7 => some (.sweepgo (rArgs w))
  | 8 => some (.sweepstat (rArgs w))
  | 9 => some (.verstep (rArgs w))
  | 10 => some (.lncpy (rArgs w))
  | 11 => some (.lnred (rArgs w))
  | 12 => some (.lnfence (rArgs w))
  | 13 => some (.lnstat (rArgs w))
  | _ => none

/-- Major 0x3F. -/
def parse3F (w : Nat) : Option Instr :=
  match bitsAt w 19 3 with
  | 0 => some (.csrr (iArgs w))
  | 1 => some (.csrw (iArgs w))
  | 2 => some (.csrs (iArgs w))
  | 3 => some (.csrc (iArgs w))
  | 4 => some (.tret (iArgs w))
  | _ => none

/-- Majors assigned by Table 2.6 (R76). -/
def majorAssigned (m : Nat) : Bool :=
  decide (m < 0x0E) || (decide (0x10 ≤ m) && decide (m < 0x1A)) || (decide (0x20 ≤ m) && decide (m < 0x40))

/-- Formats R, V, E and M, whose bit 31 must be zero (R60): every assigned major but those of formats I, S, B, U, J, A and
REP. -/
def majorHasRzt (m : Nat) : Bool :=
  match m with
  | 0x02 | 0x03 | 0x08 | 0x09 | 0x0A | 0x0B | 0x0C | 0x0D | 0x14 | 0x15 | 0x33 | 0x3F => false
  | _ => true

/-- Table 2.6: the instruction a 32-bit word names by its major and function fields; none for a function or sub-operation
code that is not listed. -/
def parse (w : Nat) : Option Instr :=
  match majorOf w with
  | 0x00 => parse00 w
  | 0x01 => parse01 w
  | 0x02 => parse02 w
  | 0x03 => parse03 w
  | 0x04 => parse04 .f32 w
  | 0x05 => parse04 .bf16 w
  | 0x06 => parse04 .fp16 w
  | 0x07 => parse07 w
  | 0x08 => parse08 w
  | 0x09 => parse09 w
  | 0x0A => parse0A w
  | 0x0B => parse0B w
  | 0x0C => parse0C w
  | 0x0D => parse0D w
  | 0x10 => parse10 w
  | 0x11 => parse11 w
  | 0x12 => parse12 w
  | 0x13 => parse13 w
  | 0x14 => parse14 w
  | 0x15 => parse14 w
  | 0x16 => parse16 w
  | 0x17 => parse17 w
  | 0x18 => parse18 w
  | 0x19 => parse19 w
  | 0x20 => parse20 w
  | 0x21 => parse21 w
  | 0x22 => parse22 w
  | 0x23 => parse23 w
  | 0x24 => parse24 w
  | 0x25 => parse25 w
  | 0x26 => parse26 w
  | 0x27 => parse27 w
  | 0x28 => parse28 w
  | 0x29 => parse29 w
  | 0x2A => parse2A w
  | 0x2B => parse2B w
  | 0x2C => parse2C w
  | 0x2D => parse2D w
  | 0x2E => parse2E w
  | 0x2F => parse2F w
  | 0x30 => parse30 w
  | 0x31 => parse31 w
  | 0x32 => parse32 w
  | 0x33 => parse33 w
  | 0x34 => parse34 w
  | 0x35 => parse35 w
  | 0x36 => parse36 w
  | 0x37 => parse37 w
  | 0x38 => parse38 w
  | 0x39 => parse39 w
  | 0x3A => parse3A w
  | 0x3B => parse3B w
  | 0x3C => parse3C w
  | 0x3D => parse3D w
  | 0x3E => parse3E w
  | 0x3F => parse3F w
  | _ => none

/-- The instruction of Table 2.5 with operation code `op`. (Lean's compiled code has room for 245 constructors that carry
operands; the 16-bit operations lie beyond it, so this one definition and those that call it are for the kernel only.) -/
noncomputable def laneInstr (op : Fin 16) (a : C16Args) : Instr :=
  match op with
  | 0 => .vaddF32C16 a
  | 1 => .vsubF32C16 a
  | 2 => .vmulF32C16 a
  | 3 => .vminF32C16 a
  | 4 => .vmaxF32C16 a
  | 5 => .vaddS32C16 a
  | 6 => .vsubS32C16 a
  | 7 => .vandC16 a
  | 8 => .vorC16 a
  | 9 => .vxorC16 a
  | 10 => .vmovC16 a
  | 11 => .vnegF32C16 a
  | 12 => .vabsF32C16 a
  | 13 => .vmacF32C16 a
  | 14 => .vsllS32C16 a
  | _ => .vcvtBf16F32C16 a

/-- What the instruction stream holds (R54): a 32-bit instruction or the end-of-kernel marker, or a 16-bit lane operation with
its operation code. -/
inductive Fetched
  /-- An instruction of 32 bits, or the end-of-kernel marker. -/
  | whole (i : Instr)
  /-- A 16-bit lane operation (R74). -/
  | lane (op : Fin 16) (a : C16Args)
  deriving DecidableEq, Repr

/-- The instruction itself. -/
noncomputable def Fetched.toInstr (f : Fetched) : Instr :=
  match f with
  | .whole i => i
  | .lane op a => laneInstr op a

/-- What decoding finds (R75): an instruction and its length in bytes, or the check that refuses the word. -/
inductive Decoded
  /-- An instruction. -/
  | ok (f : Fetched) (len : Nat)
  /-- Checks 2 and 4 of R75. -/
  | illegal (word len : Nat)
  /-- Check 3 of R75. -/
  | rzt (word : Nat)
  /-- The bytes end before the instruction does. -/
  | truncated
  deriving DecidableEq, Repr

/-- Check 4 of R75 on a parsed word. -/
def checkFields (o : Option Instr) (word : Nat) : Decoded :=
  match o with
  | some i => if i.WellFormed then .ok (.whole i) 4 else .illegal word 4
  | none => .illegal word 4

/-- R54, R55, R74: a halfword whose bit 0 is 0. Every one but the end-of-kernel marker is a lane operation. -/
def decodeShort (w : Nat) : Decoded :=
  if w = 0 then .ok (.whole .endOfKernel) 2 else .ok (.lane (Fin.ofNat 16 (w / 2)) (c16Args w)) 2

/-- R75: checks 2 to 4 on a 32-bit word. -/
def decodeLong (w : Nat) : Decoded :=
  if majorAssigned (majorOf w) = false then .illegal w 4
  else if majorHasRzt (majorOf w) && decide (w / 2 ^ 31 % 2 = 1) then .rzt w
  else checkFields (parse w) w

/-- R54: bit 0 of the first halfword gives the length. -/
def decodeWord (w : Nat) : Decoded :=
  if w % 2 = 0 then decodeShort (w % 2 ^ 16) else decodeLong (w % 2 ^ 32)

/-- Decoding of a stream of bytes, the lowest address first; total on every list. -/
def decode (bs : List Byte) : Decoded :=
  match bs with
  | b0 :: b1 :: rest =>
    let lo := b0.toNat + 256 * b1.toNat
    if b0.toNat % 2 = 0 then decodeShort lo
    else match rest with
      | b2 :: b3 :: _ => decodeLong (lo + 65536 * b2.toNat + 16777216 * b3.toNat)
      | _ => .truncated
  | _ => .truncated

/-- The bytes of a word of `n` bytes, lowest address first (R3). -/
def wordBytes (n w : Nat) : List Byte := (List.range n).map fun k => BitVec.ofNat 8 (w / 256 ^ k)

/-- The instruction this decoder reads from the `nbits` low bits of `w`, every later bit zero. -/
noncomputable def decodeTableWord (nbits w : Nat) : Option Instr :=
  match decode (wordBytes 4 (w % 2 ^ nbits)) with
  | .ok f _ => some f.toInstr
  | _ => none

/-! The encoder, from the same tables. -/

/-- What every 32-bit instruction has in common: bit 0, the major and the stall count. -/
def encHead (major : Nat) (sc : Fin 4) : Nat := 1 + 2 * major + 2 ^ 7 * sc.val

/-- Three register fields at bits 9, 14 and 19. -/
def encRegs (a b c : Nat) : Nat := 2 ^ 9 * a + 2 ^ 14 * b + 2 ^ 19 * c

/-- Format R with function `f4`. -/
def encR (major f4 : Nat) (a : RArgs) : Nat :=
  encHead major a.sc + encRegs a.rd a.rs1 a.rs2 + 2 ^ 24 * a.sr.toNat + 2 ^ 25 * f4 + 2 ^ 29 * a.h.val

/-- The major of a scalar floating-point type. -/
def FTy.major (t : FTy) : Nat :=
  match t with
  | .f32 => 0x04
  | .bf16 => 0x05
  | .fp16 => 0x06

/-- Format R in majors 0x04 to 0x06. -/
def encF (f4 : Nat) (a : FArgs) : Nat :=
  encHead a.ty.major a.sc + encRegs a.rd a.rs1 a.rs2 + 2 ^ 24 * a.sr.toNat + 2 ^ 25 * f4 + 2 ^ 29 * a.h.val

/-- FCVT. -/
def encCvt (a : CvtArgs) : Nat :=
  encHead 0x07 a.sc + encRegs a.rd a.rs1 (a.rm.val + 4 * a.sat.toNat) + 2 ^ 24 * a.sr.toNat + 2 ^ 25 * a.src.val
    + 2 ^ 27 * a.dst.val + 2 ^ 29 * a.h.val

/-- Format I with function `f3`. -/
def encI (major f3 : Nat) (a : IArgs) : Nat := encHead major a.sc + encRegs a.rd a.rs1 f3 + 2 ^ 22 * a.imm.toNat

/-- Formats S and B with function `f3`. -/
def encS (major f3 : Nat) (a : SArgs) : Nat :=
  encHead major a.sc + encRegs (a.imm.toNat % 32) a.rs1 a.rs2 + 2 ^ 24 * f3 + 2 ^ 27 * (a.imm.toNat / 32)

/-- Format M with direction bit `d`. -/
def encM (major d : Nat) (a : MArgs) : Nat :=
  encHead major a.sc + encRegs a.rd a.cs a.xi + 2 ^ 24 * a.xj.val + 2 ^ 29 * d + 2 ^ 30 * a.h0.toNat

/-- Format A with function `op`. -/
def encA (op : Nat) (a : AArgs) : Nat :=
  encHead (0x14 + a.ord.val / 2) a.sc + encRegs a.rd a.cs a.rs2 + 2 ^ 24 * op + 2 ^ 28 * a.scope.val
    + 2 ^ 31 * (a.ord.val % 2)

/-- Formats V and E: the three register fields, the 3-bit field, the 2-bit field and the hints. -/
def encVE (major a b c three two : Nat) (h sc : Fin 4) : Nat :=
  encHead major sc + encRegs a b c + 2 ^ 24 * three + 2 ^ 27 * two + 2 ^ 29 * h.val

/-- A 16-bit lane operation. -/
def encC16 (op : Nat) (a : C16Args) : Nat := 2 * op + 2 ^ 5 * a.vd.val + 2 ^ 10 * a.vs2.val + 2 ^ 15 * a.p1.toNat

/-- REP. -/
def encRep (a : RepArgs) : Nat :=
  encHead 0x0B a.sc + 2 ^ 9 * a.xc.toNat + 2 ^ 10 * a.count.val + 2 ^ 20 * a.sd.toNat + 2 ^ 21 * a.s1.toNat
    + 2 ^ 22 * a.s2.toNat + 2 ^ 23 * a.ostep.toNat

/-- The word of an instruction, none for an event. -/
def encode (i : Instr) : Option Nat :=
  match i with
  | .endOfKernel => some 0
  | .add a => some (encR 0x00 0 a)
  | .sub a => some (encR 0x00 1 a)
  | .and a => some (encR 0x00 2 a)
  | .or a => some (encR 0x00 3 a)
  | .xor a => some (encR 0x00 4 a)
  | .sll a => some (encR 0x00 5 a)
  | .srl a => some (encR 0x00 6 a)
  | .sra a => some (encR 0x00 7 a)
  | .rol a => some (encR 0x00 8 a)
  | .ror a => some (encR 0x00 9 a)
  | .slt a => some (encR 0x00 10 a)
  | .sltn a => some (encR 0x00 11 a)
  | .min a => some (encR 0x00 12 a)
  | .max a => some (encR 0x00 13 a)
  | .minn a => some (encR 0x00 14 a)
  | .maxn a => some (encR 0x00 15 a)
  | .mul a => some (encR 0x01 0 a)
  | .mulh a => some (encR 0x01 1 a)
  | .mulhn a => some (encR 0x01 2 a)
  | .div a => some (encR 0x01 3 a)
  | .divn a => some (encR 0x01 4 a)
  | .rem a => some (encR 0x01 5 a)
  | .remn a => some (encR 0x01 6 a)
  | .clz a => some (encR 0x01 7 a)
  | .ctz a => some (encR 0x01 8 a)
  | .popc a => some (encR 0x01 9 a)
  | .addi a => some (encI 0x02 0 a)
  | .andi a => some (encI 0x02 1 a)
  | .ori a => some (encI 0x02 2 a)
  | .xori a => some (encI 0x02 3 a)
  | .slli a => some (encI 0x02 4 a)
  | .srli a => some (encI 0x02 5 a)
  | .srai a => some (encI 0x02 6 a)
  | .slti a => some (encI 0x02 7 a)
  | .lui a => some (encHead 0x03 a.sc + 2 ^ 9 * a.rd.val + 2 ^ 14 * a.imm.toNat)
  | .fadd a => some (encF 0 a)
  | .fsub a => some (encF 1 a)
  | .fmul a => some (encF 2 a)
  | .ffma a => some (encF 3 a)
  | .fdiv a => some (encF 4 a)
  | .fsqrt a => some (encF 5 a)
  | .fmin a => some (encF 6 a)
  | .fmax a => some (encF 7 a)
  | .fcmpEq a => some (encF 8 a)
  | .fcmpLt a => some (encF 9 a)
  | .fcmpLe a => some (encF 10 a)
  | .fcvt a => some (encCvt a)
  | .beq a => some (encS 0x08 0 a)
  | .bne a => some (encS 0x08 1 a)
  | .blt a => some (encS 0x08 2 a)
  | .bge a => some (encS 0x08 3 a)
  | .bltn a => some (encS 0x08 4 a)
  | .bgen a => some (encS 0x08 5 a)
  | .jal a => some (encHead 0x09 a.sc + 2 ^ 9 * a.off.toNat)
  | .jalc a => some (encI 0x0A 0 a)
  | .tend a => some (encI 0x0A 1 a)
  | .ecall a => some (encI 0x0A 2 a)
  | .ebreak a => some (encI 0x0A 3 a)
  | .nop a => some (encI 0x0A 4 a)
  | .rep a => some (encRep a)
  | .lb a => some (encI 0x0C 0 a)
  | .lh a => some (encI 0x0C 1 a)
  | .lw a => some (encI 0x0C 2 a)
  | .ld a => some (encI 0x0C 3 a)
  | .lbn a => some (encI 0x0C 4 a)
  | .lhn a => some (encI 0x0C 5 a)
  | .lwn a => some (encI 0x0C 6 a)
  | .sb a => some (encS 0x0D 0 a)
  | .sh a => some (encS 0x0D 1 a)
  | .sw a => some (encS 0x0D 2 a)
  | .sd a => some (encS 0x0D 3 a)
  | .lde a => some (encM 0x10 0 a)
  | .ste a => some (encM 0x10 1 a)
  | .lc a => some (encVE 0x11 a.vd a.vs1 a.vs2 a.pg 0 a.h a.sc)
  | .sc a => some (encVE 0x11 a.vd a.vs1 a.vs2 a.pg 1 a.h a.sc)
  | .vle a => some (encVE 0x12 a.vd a.vs1 a.vs2 a.pg 0 a.h a.sc)
  | .vse a => some (encVE 0x12 a.vd a.vs1 a.vs2 a.pg 1 a.h a.sc)
  | .vlse a => some (encVE 0x12 a.vd a.vs1 a.vs2 a.pg 2 a.h a.sc)
  | .vlxe a => some (encVE 0x13 a.vd a.vs1 a.vs2 a.pg 0 a.h a.sc)
  | .vsxe a => some (encVE 0x13 a.vd a.vs1 a.vs2 a.pg 1 a.h a.sc)
  | .amoadd a => some (encA 0 a)
  | .amoand a => some (encA 1 a)
  | .amoor a => some (encA 2 a)
  | .amoxor a => some (encA 3 a)
  | .amomin a => some (encA 4 a)
  | .amomax a => some (encA 5 a)
  | .amominn a => some (encA 6 a)
  | .amomaxn a => some (encA 7 a)
  | .amoswap a => some (encA 8 a)
  | .amocas a => some (encA 9 a)
  | .amofadd a => some (encA 10 a)
  | .ldAcq a => some (encA 11 a)
  | .stRel a => some (encA 12 a)
  | .fence a => some (encA 13 a)
  | .lds a => some (encR 0x16 0 a)
  | .sts a => some (encR 0x16 1 a)
  | .ldf a => some (encR 0x16 2 a)
  | .setfe a => some (encR 0x16 3 a)
  | .waita a => some (encR 0x16 4 a)
  | .movg a => some (encR 0x16 5 a)
  | .movfg a => some (encR 0x16 6 a)
  | .rdef a => some (encR 0x17 0 a)
  | .rtag a => some (encR 0x17 1 a)
  | .rdrop a => some (encR 0x17 2 a)
  | .rpin a => some (encR 0x17 3 a)
  | .rinv a => some (encR 0x17 4 a)
  | .cslice a => some (encR 0x18 0 a)
  | .cstep a => some (encR 0x18 1 a)
  | .cflip a => some (encR 0x18 2 a)
  | .cperm a => some (encR 0x18 3 a)
  | .csplit a => some (encR 0x18 4 a)
  | .cmerge a => some (encR 0x18 5 a)
  | .cfix a => some (encR 0x18 6 a)
  | .cbcast a => some (encR 0x18 7 a)
  | .candp a => some (encR 0x18 8 a)
  | .creach a => some (encR 0x18 9 a)
  | .cretag a => some (encR 0x18 10 a)
  | .cmove a => some (encR 0x18 11 a)
  | .cclear a => some (encR 0x18 12 a)
  | .cgetf a => some (encR 0x19 0 a)
  | .ctest a => some (encR 0x19 1 a)
  | .csubset a => some (encR 0x19 2 a)
  | .ceq a => some (encR 0x19 3 a)
  | .cbind a => some (encR 0x19 4 a)
  | .cunbind a => some (encR 0x19 5 a)
  | .ccall a => some (encR 0x19 6 a)
  | .cret a => some (encR 0x19 7 a)
  | .ckey a => some (encR 0x19 8 a)
  | .vadd a => some (encVE 0x20 a.vd a.vs1 a.vs2 a.pg a.f2 a.h a.sc)
  | .vsub a => some (encVE 0x21 a.vd a.vs1 a.vs2 a.pg a.f2 a.h a.sc)
  | .vmul a => some (encVE 0x22 a.vd a.vs1 a.vs2 a.pg a.f2 a.h a.sc)
  | .vfma a => some (encVE 0x23 a.vd a.vs1 a.vs2 a.pg a.f2 a.h a.sc)
  | .vfms a => some (encVE 0x24 a.vd a.vs1 a.vs2 a.pg a.f2 a.h a.sc)
  | .vdiv a => some (encVE 0x25 a.vd a.vs1 a.vs2 a.pg a.f2 a.h a.sc)
  | .vmin a => some (encVE 0x26 a.vd a.vs1 a.vs2 a.pg a.f2 a.h a.sc)
  | .vmax a => some (encVE 0x27 a.vd a.vs1 a.vs2 a.pg a.f2 a.h a.sc)
  | .vsqrt a => some (encVE 0x28 a.vd a.vs1 0 a.pg a.f2 a.h a.sc)
  | .vrsq a => some (encVE 0x28 a.vd a.vs1 1 a.pg a.f2 a.h a.sc)
  | .vrcp a => some (encVE 0x28 a.vd a.vs1 2 a.pg a.f2 a.h a.sc)
  | .vabs a => some (encVE 0x28 a.vd a.vs1 3 a.pg a.f2 a.h a.sc)
  | .vneg a => some (encVE 0x28 a.vd a.vs1 4 a.pg a.f2 a.h a.sc)
  | .vexp a => some (encVE 0x28 a.vd a.vs1 5 a.pg a.f2 a.h a.sc)
  | .vexp2 a => some (encVE 0x28 a.vd a.vs1 6 a.pg a.f2 a.h a.sc)
  | .vlog2 a => some (encVE 0x28 a.vd a.vs1 7 a.pg a.f2 a.h a.sc)
  | .vdot a => some (encVE 0x29 a.vd a.vs1 a.vs2 a.pg a.f2 a.h a.sc)
  | .vsll a => some (encVE 0x2A a.vd a.vs1 a.vs2 a.pg 0 a.h a.sc)
  | .vsrl a => some (encVE 0x2A a.vd a.vs1 a.vs2 a.pg 1 a.h a.sc)
  | .vsra a => some (encVE 0x2A a.vd a.vs1 a.vs2 a.pg 2 a.h a.sc)
  | .vand a => some (encVE 0x2B a.vd a.vs1 a.vs2 a.pg 0 a.h a.sc)
  | .vor a => some (encVE 0x2B a.vd a.vs1 a.vs2 a.pg 1 a.h a.sc)
  | .vxor a => some (encVE 0x2B a.vd a.vs1 a.vs2 a.pg 2 a.h a.sc)
  | .vsel a => some (encVE 0x2B a.vd a.vs1 a.vs2 a.pg 3 a.h a.sc)
  | .vcvt a => some (encVE 0x2C a.vd a.vs1 a.vs2 a.pg a.f2 a.h a.sc)
  | .vcvtSat a => some (encVE 0x2D a.vd a.vs1 a.vs2 a.pg a.f2 a.h a.sc)
  | .vperm a => some (encVE 0x2E a.vd a.vs1 a.vs2 a.pg a.f2 a.h a.sc)
  | .vslide a => some (encVE 0x2F a.vd a.vs1 0 a.pg a.f2 a.h a.sc)
  | .vbcast a => some (encVE 0x2F a.vd a.vs1 1 a.pg a.f2 a.h a.sc)
  | .vmovx a => some (encVE 0x2F a.vd a.vs1 2 a.pg a.f2 a.h a.sc)
  | .viota a => some (encVE 0x2F a.vd a.vs1 3 a.pg a.f2 a.h a.sc)
  | .vcmp a => some (encVE 0x30 a.vd a.vs1 a.vs2 a.pg a.f2 a.h a.sc)
  | .vred a => some (encVE 0x31 a.vd a.vs1 a.vs2 a.pg a.f2 a.h a.sc)
  | .pand a => some (encVE 0x32 a.vd a.vs1 a.vs2 0 a.f2 a.h a.sc)
  | .por a => some (encVE 0x32 a.vd a.vs1 a.vs2 1 a.f2 a.h a.sc)
  | .pxor a => some (encVE 0x32 a.vd a.vs1 a.vs2 2 a.f2 a.h a.sc)
  | .pnot a => some (encVE 0x32 a.vd a.vs1 a.vs2 3 a.f2 a.h a.sc)
  | .pfirst a => some (encVE 0x32 a.vd a.vs1 a.vs2 4 a.f2 a.h a.sc)
  | .pcnt a => some (encVE 0x32 a.vd a.vs1 a.vs2 5 a.f2 a.h a.sc)
  | .vwhile a => some (encVE 0x32 a.vd a.vs1 a.vs2 6 a.f2 a.h a.sc)
  | .bpany a => some (encS 0x33 0 a)
  | .bpnone a => some (encS 0x33 1 a)
  | .mwload a => some (encVE 0x34 a.ca a.cb a.xc a.q 0 a.h a.sc)
  | .mzero a => some (encVE 0x34 a.ca a.cb a.xc a.q 1 a.h a.sc)
  | .mstat a => some (encVE 0x34 a.ca a.cb a.xc a.q 2 a.h a.sc)
  | .mma a => some (encVE 0x35 a.ca a.cb a.xc a.q a.f2 a.h a.sc)
  | .mstore a => some (encVE 0x36 a.ca a.cb a.xc a.q a.f2 a.h a.sc)
  | .mrdrow a => some (encVE 0x37 a.ca a.cb a.xc 0 a.f2 a.h a.sc)
  | .mwrrow a => some (encVE 0x37 a.ca a.cb a.xc 1 a.f2 a.h a.sc)
  | .cpy a => some (encVE 0x38 a.ca a.cb a.xc a.q 0 a.h a.sc)
  | .cpyw a => some (encVE 0x38 a.ca a.cb a.xc a.q 1 a.h a.sc)
  | .cpyb a => some (encVE 0x38 a.ca a.cb a.xc a.q 2 a.h a.sc)
  | .cpys a => some (encVE 0x38 a.ca a.cb a.xc a.q 3 a.h a.sc)
  | .cpym a => some (encVE 0x39 a.ca a.cb a.xc a.q 0 a.h a.sc)
  | .cpf a => some (encVE 0x39 a.ca a.cb a.xc a.q 1 a.h a.sc)
  | .cfill a => some (encVE 0x39 a.ca a.cb a.xc a.q 2 a.h a.sc)
  | .cpresume a => some (encVE 0x3A a.ca a.cb a.xc a.q 0 a.h a.sc)
  | .cpabort a => some (encVE 0x3A a.ca a.cb a.xc a.q 1 a.h a.sc)
  | .cpstat a => some (encVE 0x3A a.ca a.cb a.xc a.q 2 a.h a.sc)
  | .qfence a => some (encVE 0x3A a.ca a.cb a.xc a.q 3 a.h a.sc)
  | .barinit a => some (encVE 0x3B a.ca a.cb a.xc 0 a.f2 a.h a.sc)
  | .barexp a => some (encVE 0x3B a.ca a.cb a.xc 1 a.f2 a.h a.sc)
  | .bararr a => some (encVE 0x3B a.ca a.cb a.xc 2 a.f2 a.h a.sc)
  | .barwait a => some (encVE 0x3B a.ca a.cb a.xc 3 a.f2 a.h a.sc)
  | .barflg a => some (encVE 0x3B a.ca a.cb a.xc 4 a.f2 a.h a.sc)
  | .bankfmt a => some (encVE 0x3B a.ca a.cb a.xc 5 a.f2 a.h a.sc)
  | .splock a => some (encVE 0x3B a.ca a.cb a.xc 6 a.f2 a.h a.sc)
  | .spunlock a => some (encVE 0x3B a.ca a.cb a.xc 7 a.f2 a.h a.sc)
  | .spawn a => some (encR 0x3C 0 a)
  | .reap a => some (encR 0x3C 1 a)
  | .yield a => some (encR 0x3C 2 a)
  | .park a => some (encR 0x3C 3 a)
  | .wake a => some (encR 0x3C 4 a)
  | .putr a => some (encR 0x3C 5 a)
  | .skjoin a => some (encR 0x3C 6 a)
  | .skleave a => some (encR 0x3C 7 a)
  | .skbar a => some (encR 0x3C 8 a)
  | .skquery a => some (encR 0x3C 9 a)
  | .tlaunch a => some (encR 0x3C 10 a)
  | .twait a => some (encR 0x3C 11 a)
  | .kvsub a => some (encR 0x3D 0 a)
  | .kvunsub a => some (encR 0x3D 1 a)
  | .kvnext a => some (encR 0x3D 2 a)
  | .kvrel a => some (encR 0x3D 3 a)
  | .mgalloc a => some (encR 0x3D 4 a)
  | .mgput a => some (encR 0x3D 5 a)
  | .mgget a => some (encR 0x3D 6 a)
  | .mgfree a => some (encR 0x3D 7 a)
  | .l2pin a => some (encR 0x3E 0 a)
  | .l2unpin a => some (encR 0x3E 1 a)
  | .l2hint a => some (encR 0x3E 2 a)
  | .l2flush a => some (encR 0x3E 3 a)
  | .l2inv a => some (encR 0x3E 4 a)
  | .oalloc a => some (encR 0x3E 5 a)
  | .ofree a => some (encR 0x3E 6 a)
  | .sweepgo a => some (encR 0x3E 7 a)
  | .sweepstat a => some (encR 0x3E 8 a)
  | .verstep a => some (encR 0x3E 9 a)
  | .lncpy a => some (encR 0x3E 10 a)
  | .lnred a => some (encR 0x3E 11 a)
  | .lnfence a => some (encR 0x3E 12 a)
  | .lnstat a => some (encR 0x3E 13 a)
  | .csrr a => some (encI 0x3F 0 a)
  | .csrw a => some (encI 0x3F 1 a)
  | .csrs a => some (encI 0x3F 2 a)
  | .csrc a => some (encI 0x3F 3 a)
  | .tret a => some (encI 0x3F 4 a)
  | .vaddF32C16 a => some (encC16 0 a)
  | .vsubF32C16 a => some (encC16 1 a)
  | .vmulF32C16 a => some (encC16 2 a)
  | .vminF32C16 a => some (encC16 3 a)
  | .vmaxF32C16 a => some (encC16 4 a)
  | .vaddS32C16 a => some (encC16 5 a)
  | .vsubS32C16 a => some (encC16 6 a)
  | .vandC16 a => some (encC16 7 a)
  | .vorC16 a => some (encC16 8 a)
  | .vxorC16 a => some (encC16 9 a)
  | .vmovC16 a => some (encC16 10 a)
  | .vnegF32C16 a => some (encC16 11 a)
  | .vabsF32C16 a => some (encC16 12 a)
  | .vmacF32C16 a => some (encC16 13 a)
  | .vsllS32C16 a => some (encC16 14 a)
  | .vcvtBf16F32C16 a => some (encC16 15 a)
  | .powerOnReset => none
  | .firmwareDownload _ => none
  | .trapEntry _ _ _ _ => none
  | .interrupt _ _ => none
  | .slotmodeWrite _ _ => none
  | .slotmodeSwitch _ => none
  | .l1cfgWrite _ _ => none
  | .l1cfgReconfigure _ => none
  | .mtbaseWrite _ _ => none
  | .linkArrival _ _ => none
  | .registerCacheFill _ _ => none
  | .recipeReplay _ _ _ => none
  | .syncTimeout _ => none
  | .lockhold _ _ => none
  | .bankfmtApply _ => none
  | .matrixOpStart _ => none
  | .matrixOpComplete _ => none
  | .copyStart _ _ => none
  | .copyUnitDeliver _ _ => none
  | .copyComplete _ _ => none
  | .cpfComplete _ _ => none
  | .taskStart _ _ _ => none
  | .mailboxAccept _ => none
  | .kmuPassStart _ => none
  | .kmuPageFetch _ => none
  | .kmuPageDeliver _ _ => none
  | .windowAdjust _ _ => none
  | .l2SliceRequest _ _ _ _ => none
  | .pageTableWalk _ _ _ => none
  | .gddr7BlockWrite _ _ _ => none
  | .gddr7BlockRead _ _ _ _ => none
  | .scrub _ _ => none
  | .uncorrectableError _ => none
  | .allasleep _ => none
  | .ofreeCommit _ => none
  | .sweepVisit _ _ => none
  | .sweepComplete _ => none
  | .partitionCreate _ => none
  | .partitionChange _ _ => none
  | .partitionSwapOut _ => none
  | .partitionSwapIn _ => none
  | .thermalNotice _ => none
  | .thermalStop _ => none
  | .powerLimitStep _ => none
  | .hostWrite _ _ _ => none
  | .hostRead _ _ => none
  | .cxlMemRequest _ _ _ => none
  | .hostLinkTrain _ _ _ => none
  | .mbctlWrite _ _ => none
  | .mbtailWrite _ _ => none
  | .intreq _ _ => none
  | .pairctlWrite _ _ _ => none
  | .pairing _ _ => none
  | .hdmpartWrite _ _ => none
  | .hdmpartApply => none
  | .coreoffWrite _ _ _ _ => none
  | .dirtyctlWrite _ _ _ => none
  | .dirtydataRead _ _ => none
  | .migcmdStop _ _ => none
  | .migcmdSave _ _ => none
  | .migcmdRestore _ _ _ => none
  | .migcmdResume _ _ => none
  | .evidenceRequest _ _ => none
  | .keyImport _ _ _ => none
  | .measurementExtend _ _ _ => none
  | .eventsClear _ _ => none
  | .adminRegWrite _ _ _ _ => none
  | .seamTrain _ _ _ => none
  | .flitReplay => none
  | .seamRetrain => none
  | .seamDown => none
  | .peerStore _ _ _ _ => none
  | .peerLoad _ _ _ => none
  | .peerAtomic _ _ _ _ _ => none
  | .peerAcknowledge _ => none
  | .peerWake _ _ => none
  | .peerOfreeUpdate _ _ => none
  | .peerInvalidation _ _ => none
  | .lncpyUnitDeliver _ _ => none
  | .lnredChunkSend _ _ => none
  | .lnredChunkCombine _ _ _ _ _ => none
  | .lnredPartnerHalt _ _ _ => none
  | .lqComplete _ _ => none
  | .contextRestart _ => none
  | .powerGating _ _ => none

/-- The length of an instruction in bytes: 2 for the end-of-kernel marker and the lane operations of R74, else 4. -/
def Instr.len (i : Instr) : Nat :=
  match encode i with
  | some w => if w % 2 = 0 then 2 else 4
  | none => 0

end Sys2Proof
end

