-- ==== Sys2Proof/Machine/Sparse.lean ====
section
/-! DEFINITION. Finite maps as lists in one canonical form: keys strictly rising, and no entry equal to the value that an
unlisted key has. Register files, memory and every table of the machine that is mostly at rest are held this way, so that equal
contents are equal data. -/

namespace Sys2Proof.Machine

/-- A map from numbers, most of whose values are the default of the place it is used in. -/
abbrev Sparse (α : Type) := List (Nat × α)

/-- The value at key `k`, `d` when none is listed. -/
def sget {α : Type} (d : α) (m : Sparse α) (k : Nat) : α :=
  match m with
  | [] => d
  | (j, v) :: rest => if j < k then sget d rest k else if j = k then v else d

/-- Removes the entry of key `k`. -/
def serase {α : Type} (m : Sparse α) (k : Nat) : Sparse α :=
  match m with
  | [] => []
  | (j, v) :: rest => if j < k then (j, v) :: serase rest k else if j = k then rest else (j, v) :: rest

/-- Lists `v` at key `k` in rising order. -/
def sinsert {α : Type} (m : Sparse α) (k : Nat) (v : α) : Sparse α :=
  match m with
  | [] => [(k, v)]
  | (j, w) :: rest =>
    if j < k then (j, w) :: sinsert rest k v
    else if j = k then (k, v) :: rest
    else (k, v) :: (j, w) :: rest

/-- Writes `v` at key `k`; writing the default removes the entry. -/
def sset {α : Type} [DecidableEq α] (d : α) (m : Sparse α) (k : Nat) (v : α) : Sparse α :=
  if v = d then serase m k else sinsert m k v

/-- Keeps the entries whose key the test accepts. -/
def skeep {α : Type} (f : Nat → Bool) (m : Sparse α) : Sparse α := m.filter fun e => f e.1

/-- Puts every key of `[lo, hi)` at the default. -/
def sclear {α : Type} (lo hi : Nat) (m : Sparse α) : Sparse α := skeep (fun k => !(decide (lo ≤ k) && decide (k < hi))) m

/-- A table's cells changed, and those that come to their reset value no longer listed. -/
def smapv {α : Type} [DecidableEq α] (default : α) (f : α → α) (m : Sparse α) : Sparse α :=
  (m.map fun e => (e.1, f e.2)).filter fun e => decide (e.2 ≠ default)

/-- Every listed key lies above `k`. -/
def sabove {α : Type} (k : Nat) (m : Sparse α) : Bool := m.all fun e => decide (k < e.1)

/-- The canonical form: keys strictly rising, no entry at the default. -/
def swf {α : Type} [DecidableEq α] (d : α) (m : Sparse α) : Bool :=
  match m with
  | [] => true
  | (k, v) :: rest => decide (v ≠ d) && sabove k rest && swf d rest

end Sys2Proof.Machine
end

