-- ==== Sys2Proof/Machine/Cap.lean ====
section
/-! DEFINITION. Capabilities (R19, R28 to R40): 512 bits and a tag, the fields of Table 1.2, and the operations on fields that
every chapter shares. -/

namespace Sys2Proof.Machine

/-- A capability value with its tag (R28). -/
structure Cap where
  tag : Bool
  bits : BitVec 512
  deriving DecidableEq, Repr

/-- The null capability (R28). -/
def Cap.null : Cap := { tag := false, bits := 0 }

/-- The `n` bits of a capability from bit `lo` up, as a number. -/
def Cap.field (c : Cap) (lo n : Nat) : Nat := c.bits.toNat / 2 ^ lo % 2 ^ n

/-- A field replaced. -/
def Cap.setField (c : Cap) (lo n v : Nat) : Cap :=
  let b := c.bits.toNat
  { c with bits := BitVec.ofNat 512 (b - b / 2 ^ lo % 2 ^ n * 2 ^ lo + v % 2 ^ n * 2 ^ lo) }

/-- Table 1.2, BASE. -/
def Cap.base (c : Cap) : Nat := c.field 0 55
/-- Table 1.2, GEN. -/
def Cap.gen (c : Cap) : Nat := c.field 56 8
/-- Table 1.2, OBJID. -/
def Cap.objid (c : Cap) : Nat := c.field 64 20
/-- Rank, 1 to 8 (Table 1.2, RANKM1). -/
def Cap.rank (c : Cap) : Nat := c.field 84 3 + 1
/-- Table 1.2, FMT. -/
def Cap.fmt (c : Cap) : Nat := c.field 87 6
/-- Table 1.2, SPARSE. -/
def Cap.sparse (c : Cap) : Nat := c.field 93 3
/-- Table 1.2, LAYOUT. -/
def Cap.layout (c : Cap) : Nat := c.field 96 3
/-- The kind {FMT, SPARSE, LAYOUT} of R36. -/
def Cap.kind (c : Cap) : Nat := c.fmt * 64 + c.sparse * 8 + c.layout
/-- Table 1.2, PERMS. -/
def Cap.perms (c : Cap) : BitVec 14 := BitVec.ofNat 14 (c.field 99 14)
/-- Table 1.2, REACH. -/
def Cap.reach (c : Cap) : Nat := c.field 113 2
/-- Table 1.2, OTYPE. -/
def Cap.otype (c : Cap) : Nat := c.field 115 12
/-- Extent of dimension `k`. -/
def Cap.extent (c : Cap) (k : Nat) : Nat := c.field (128 + 20 * k) 20
/-- Stride of dimension `k`, signed, in elements. -/
def Cap.stride (c : Cap) (k : Nat) : Int := (BitVec.ofNat 28 (c.field (288 + 28 * k) 28)).toInt
/-- Word 1, bits [127:64], what CAP_FORMAT reports (Table 1.7). -/
def Cap.word1 (c : Cap) : Word := BitVec.ofNat 64 (c.field 64 64)

/-- A permission bit (Table 1.4). -/
def Cap.has (c : Cap) (n : Nat) : Bool := c.perms.getLsbD n

/-- The fields of a capability that derivations change, as numbers. -/
structure View where
  tag : Bool
  base : Int
  gen : Nat
  objid : Nat
  fmt : Nat
  sparse : Nat
  layout : Nat
  perms : BitVec 14
  reach : Nat
  otype : Nat
  /-- One (extent, stride) pair a dimension, innermost first; the length is the rank. -/
  dims : List (Int × Int)
  deriving DecidableEq, Repr

/-- The view of a capability. -/
def Cap.view (c : Cap) : View :=
  { tag := c.tag, base := c.base, gen := c.gen, objid := c.objid, fmt := c.fmt, sparse := c.sparse, layout := c.layout,
    perms := c.perms, reach := c.reach, otype := c.otype,
    dims := (List.range c.rank).map fun k => ((c.extent k : Int), c.stride k) }

/-- The low `n` bits of an integer as a number. -/
def lowBits (n : Nat) (v : Int) : Nat := (v % (2 ^ n : Nat)).toNat

/-- Extents and strides laid out from bit 128 and bit 288 (Table 1.2). -/
def dimBits (dims : List (Int × Int)) (k : Nat) : Nat :=
  match dims with
  | [] => 0
  | (e, t) :: rest => lowBits 20 e * 2 ^ (128 + 20 * k) + lowBits 28 t * 2 ^ (288 + 28 * k) + dimBits rest (k + 1)

/-- The capability of a view; dimensions at and above the rank are zero (R30). -/
def View.cap (v : View) : Cap :=
  { tag := v.tag,
    bits := BitVec.ofNat 512 (lowBits 55 v.base + v.gen % 256 * 2 ^ 56 + v.objid % 2 ^ 20 * 2 ^ 64
      + (v.dims.length - 1) % 8 * 2 ^ 84 + v.fmt % 64 * 2 ^ 87 + v.sparse % 8 * 2 ^ 93 + v.layout % 8 * 2 ^ 96
      + v.perms.toNat * 2 ^ 99 + v.reach % 4 * 2 ^ 113 + v.otype % 4096 * 2 ^ 115 + dimBits (v.dims.take 8) 0) }

/-- Element size in bits of a format code (Table 1.3); none for a reserved code. -/
def fmtBits (f : Nat) : Option Nat :=
  match f with
  | 0x00 | 0x01 | 0x02 | 0x14 | 0x15 => some 8
  | 0x03 | 0x04 | 0x10 | 0x11 => some 16
  | 0x05 | 0x06 | 0x12 => some 32
  | 0x07 | 0x08 => some 64
  | 0x18 => some 4
  | 0x20 => some 512
  | _ => none

/-- esize: element size in bytes, 0 for I4X and for a reserved code. -/
def esize (f : Nat) : Nat :=
  match fmtBits f with
  | some b => b / 8
  | none => 0

/-- The format code I4X. -/
def fmtI4X : Nat := 0x18
/-- The format code CAP. -/
def fmtCAP : Nat := 0x20

/-- Formats whose name begins with S (Table 1.3). -/
def fmtSigned (f : Nat) : Bool :=
  match f with
  | 0x01 | 0x03 | 0x05 | 0x07 => true
  | _ => false

/-- Formats with scalar and vector access (Table 1.3). -/
def fmtScalar (f : Nat) : Bool := (fmtBits f).isSome && decide (f ≠ fmtI4X) && decide (f ≠ fmtCAP)

/-- No reserved bit is set and no field holds a reserved code (R28, R32, R37). -/
def Cap.codesOk (c : Cap) : Bool :=
  decide (c.field 127 1 = 0) && decide (c.field 55 1 = 0) && (fmtBits c.fmt).isSome && decide (c.sparse < 5)
    && decide (c.layout < 5)

/-- The group size G in bytes of a sparse class of 64 elements: the presence mask and the values that are kept (Table 4.11). -/
def sparseKept (sp : Nat) : Nat :=
  match sp with
  | 1 => 48
  | 2 => 32
  | 3 => 16
  | 4 => 8
  | _ => 64

/-- The sum of index times stride over the dimensions (R38); missing indices count as zero. -/
def dotDims (dims : List (Int × Int)) (idx : List Int) : Int :=
  match dims, idx with
  | (_, t) :: ds, i :: is => i * t + dotDims ds is
  | _, _ => 0

/-- A type key of R178. -/
def Cap.isTypeKey (c : Cap) : Bool :=
  c.tag && decide (c.otype ≠ 0) && decide (c.fmt = fmtCAP) && decide (c.sparse = 0) && decide (c.layout = 0)
    && decide (c.rank = 1) && decide (c.bits.toNat / 2 ^ 128 = 0) && decide (c.base = 0) && decide (c.gen = 0)
    && decide (c.objid = 0xFFFFF) && decide (c.perms ≠ 0) && decide (c.perms &&& 0x33FF#14 = 0#14)
    && decide (c.field 127 1 = 0) && decide (c.field 55 1 = 0)

end Sys2Proof.Machine
end

