-- ==== Sys2Proof/Machine/State.lean ====
section
/-! DEFINITION. The state of a package of two LK-910 dies as plain data: strands (Table 1.1), cores, clusters, dies, partitions,
memory by physical address. Tables that are mostly at their reset value are sparse lists in canonical form. State also holds the
model's own fields, listed last in `State`: which agent moves next, and the counter of free values. -/

namespace Sys2Proof.Machine

/-- Why the machine as a whole stops. -/
inductive Fault
  /-- Raised by every step once a cluster has reached 110 C and the package has stopped its clocks (R456). Safe: the hardware
  does nothing either. -/
  | clocksStopped
  deriving DecidableEq, Repr

/-- Why a step has no meaning. -/
inductive Refusal
  /-- Raised by an arm of exec whose instruction has no meaning yet. Safe: nothing is claimed of such a step. -/
  | notModelled (mnemonic : String)
  deriving DecidableEq, Repr

/-- The register classes that have a stall-count scoreboard (Table 2.3). -/
inductive RegCls | x | c | v | p
  deriving DecidableEq, Repr

/-- A register of a strand. -/
structure RegRef where
  cls : RegCls
  num : Nat
  deriving DecidableEq, Repr

/-- A value of a register of a strand. -/
inductive RegVal
  | x (v : Word)
  | c (v : Cap)
  | v (v : Vec)
  | p (v : Pred)
  /-- The result of a merging vector instruction (R144): bytes of the register, but for those that `keep` names, which stay as they are. -/
  | m (v : Vec) (keep : Pred)
  deriving DecidableEq, Repr

/-- The states of a context (Table 9.1), in the order of its codes. Held is `Strand.hold` beside the state that the hold found. -/
inductive CtxState | free | running | parked | inMma | asleep | reaping | ended | stopped
  deriving DecidableEq, Repr

/-- What a Parked or Reaping strand awaits. The instruction is issued again when the condition holds, unless another agent
completes it. -/
inductive Wait
  /-- Nothing. -/
  | none
  /-- The instruction is issued again as soon as it would no longer park: a locked bank, a full queue, a barrier phase, a launch, a
  child. -/
  | retry
  /-- The same, of an instruction that parked on empty registers (R21): which. -/
  | empty (rs : List RegRef)
  /-- A SKBAR whose arrival the skein unit has recorded (R339); issued again like `retry`. -/
  | skein
  /-- A MOVFG parked on an empty g register (R27), with its fields. -/
  | greg (a : RArgs)
  /-- A BARWAIT on the object at a physical address (R272), with its fields. -/
  | bar (pa : Nat) (a : EqArgs)
  /-- A BANKFMT that waits for its bank to drain (R260). -/
  | bankfmt (a : EqArgs)
  /-- A request that stands in a list of another unit (a full/empty request at a bank, a lock request, a barrier arrival); that
  unit completes it. -/
  | request
  /-- QFENCE or LNFENCE (R326, R476): the queues and the sequence numbers it waits for. -/
  | fence (targets : List (Nat × Nat))
  /-- REAP waits for its child to end (R241): state Reaping; issued again like `retry`. -/
  | reap
  /-- A TWAIT on a launch record (R354): its cluster, slot and GEN, with its fields. -/
  | launch (cluster slot gen : Nat) (a : RArgs)
  /-- L2HINT, L2FLUSH or L2INV (0, 1, 2) until the slices have finished (R396), with its fields. -/
  | slices (which : Fin 3) (a : RArgs)
  /-- OFREE waits for the peer's object caches to drop the entry (R438, R458): its fields, and the bytes [lo, hi) that step 4 is to write with
  zeros, as the entry named them in step 2. -/
  | ofreePeer (a : RArgs) (zero : Option (Nat × Nat))
  /-- TEND's wait of R108 step 2, with the status word read at issue. -/
  | tend (status : Word)
  deriving DecidableEq, Repr

/-- A frame of the trusted stack (Table 6.5), and whether trap entry pushed it (R220). -/
structure Frame where
  pcc : Cap
  retoff : Int
  c30 : Cap
  c31 : Cap
  repsave : BitVec 32
  trap : Bool
  deriving DecidableEq, Repr

/-- A fixed-latency result on its way to a register (R62), readable from cycle `due`. -/
structure PendWrite where
  due : Nat
  num : Nat
  val : RegVal
  deriving DecidableEq, Repr

/-- A pending event of R217 items 1 to 8: its place in that order, and the trap it raises. Item 2 carries the queue code as a
tie-break. -/
structure Event where
  item : Nat
  sub : Nat
  int : Bool
  code : BitVec 8
  tval : Word
  tcap : Word
  deriving DecidableEq, Repr

/-- The task a strand runs: the launch record it belongs to and its flat index (R353), and its coordinates' cluster. -/
structure TaskId where
  cluster : Nat
  slot : Nat
  gen : Nat
  flat : Nat
  deriving DecidableEq, Repr

/-- A REP under way (R70, R104): its fields, its count as read when it issued, and the word and length of the instruction it repeats. -/
structure RepRun where
  args : RepArgs
  n : Nat
  word : Nat
  len : Nat
  deriving DecidableEq, Repr

/-- Where an element of an access lies, as its checks found it: its addresses, the first address of its page, and whether that page is SO. -/
structure ElemAt where
  va : Nat
  pa : Nat
  page : Nat
  so : Bool
  deriving DecidableEq, Repr

/-- A store of an instruction to one element: its size and value, and the object that it addresses. -/
structure PartWrite where
  at_ : ElemAt
  size : Nat
  value : Nat
  objid : Nat
  deriving DecidableEq, Repr

/-- One strand: Table 1.1 and the control registers of strand scope. -/
structure Strand where
  x : Sparse Word
  c : Sparse Cap
  v : Sparse Vec
  p : Sparse Pred
  emptyX : BitVec 32
  emptyC : BitVec 32
  emptyV : BitVec 32
  zor : BitVec 32
  pcc : Cap
  pc : Int
  fflags : BitVec 8
  frm : BitVec 2
  schk : Bool
  tcause : Word
  tepc : Word
  tval : Word
  tcap : Word
  bskip : Bool
  repdone : BitVec 32
  trep : BitVec 32
  bkpt : Sparse Word
  /-- Recipe Table: the words of slot 0 to 7 (R208). -/
  recipes : Sparse (List Nat)
  /-- Ties: register 0 to 31 is x, 32 to 63 is v; the value is the slot plus one, 0 for untied (R210). -/
  ties : Sparse Nat
  dropX : BitVec 32
  dropV : BitVec 32
  /-- The trusted stack, its top first (R180). -/
  frames : List Frame
  status : CtxState
  wait : Wait
  token : Bool
  /-- A hold of PARK is pending or in effect (R244). -/
  hold : Bool
  /-- The strand was started by SPAWN (R237). -/
  child : Bool
  task : Option TaskId
  endStatus : Word
  pend : List PendWrite
  /-- v registers that a queued MRDROW will write (R281). -/
  vbusy : BitVec 32
  nextIssue : Nat
  /-- An access to an SO page is not yet performed at FABRIC, because the peer card has not acknowledged a packet of it: the strand issues
nothing before (R414). -/
  soPeer : Bool
  /-- The stores of its instruction that wait for that access, a list for each page (R418). -/
  parts : List (List PartWrite)
  /-- A REP at the current pc has issued and its repetitions are under way (R70). -/
  rep : Option RepRun
  events : List Event
  /-- Which of the two frame object IDs of the context is active (R440): 0 or 1. -/
  frameSel : Nat
  deriving DecidableEq, Repr

/-- A context right after power-on reset: Free, every register zero and full. -/
def Strand.reset : Strand :=
  { x := [], c := [], v := [], p := [], emptyX := 0, emptyC := 0, emptyV := 0, zor := 0, pcc := Cap.null, pc := 0,
    fflags := 0, frm := 0, schk := false, tcause := 0, tepc := 0, tval := 0, tcap := 0, bskip := false, repdone := 0,
    trep := 0, bkpt := [], recipes := [], ties := [], dropX := 0, dropV := 0, frames := [], status := .free, wait := .none,
    token := false, hold := false, child := false, task := none, endStatus := 0, pend := [], vbusy := 0, nextIssue := 0, soPeer := false,
    parts := [],    rep := none, events := [], frameSel := 0 }

/-- A write to a g register on its way (R26): visible to reads from cycle `due`. -/
structure GWrite where
  due : Nat
  reg : Nat
  val : Word
  ctx : Nat
  deriving DecidableEq, Repr

/-- A core-scope control register value that strands other than the writer still see (R117). -/
structure OldCsr where
  expires : Nat
  num : Nat
  val : Word
  writer : Nat
  deriving DecidableEq, Repr

/-- A bank lock (R263): the holder and its hold count. -/
structure Lock where
  holder : Nat
  count : Nat
  deriving DecidableEq, Repr

/-- Which full/empty request waits at a bank (Table 7.3). -/
inductive FeKind | lds | sts | waita
  deriving DecidableEq, Repr

/-- A full/empty request that waits at a bank (R202): the instruction's fields, the word, the data of an STS. `due` is the cycle at
which it times out (R203). -/
structure BankReq where
  strand : Nat
  kind : FeKind
  args : RArgs
  pa : Nat
  va : Nat
  value : Word
  due : Nat
  deriving DecidableEq, Repr

/-- An arrival parked at its core because the phase waits only on bytes (R270). -/
structure Arrival where
  strand : Nat
  pa : Nat
  args : EqArgs
  deriving DecidableEq, Repr

/-- A block record of a sealed bank (R293); absent when invalid. -/
structure BlockRec where
  objid : Nat
  va : Nat
  mac : Word
  deriving DecidableEq, Repr

/-- The matrix operations (R277). -/
inductive MatKind
  | mwload (t e : Bool)
  | mma (s t z : Bool) (acc rows : Nat)
  | mzero (acc : Nat)
  | mstore (acc mode : Nat) (sat : Bool)
  | mrdrow (acc row : Nat) (vd : Reg)
  | mwrrow (acc row : Nat) (data : Vec)
  deriving DecidableEq, Repr

/-- An entry of MQ. `pas` are the physical addresses of the elements of its operand in traversal order, `auxPas` those of the scales of
an MWLOAD.E or of the barrier object of an MSTORE; `snap` is the accumulator as an MSTORE found it. `start` is the cycle it started in,
`fin` the cycle it completes in, `row` the next row it performs; `flags` are its numerical flags so far, `bad` the TVAL and TCAP of the
first block that failed verification (R295), or, with `false`, of an illegal I4X pair (R134). `held` are the elements of its operand when a
later MSTORE started before it had read them (R278). -/
structure MatOp where
  seq : Nat
  kind : MatKind
  strand : Nat
  pc : Int
  cap : Cap
  capReg : Nat
  aux : Option Cap
  pas : List Nat
  auxPas : List Nat
  snap : Sparse (BitVec 32)
  start : Option Nat
  fin : Nat
  accepted : Nat
  row : Nat
  flags : BitVec 8
  bad : Option (Bool × Word × Nat)
  held : Option (List Nat)
  deriving DecidableEq, Repr

/-- The copy operations (Table 12.2). -/
inductive CopyKind
  | cpy
  | cpyw (value : Word)
  | cpyb
  | cpys
  | cpym (mask : BitVec 8)
  | cpf
  | cfill (value : Word)
  deriving DecidableEq, Repr

/-- An entry of a copy queue with its recorded progress (R305, R312). `srcReg`, `dstReg` and `auxReg` are the registers of the
operands; `auxPa` is the place of a barrier object. -/
structure CopyOp where
  seq : Nat
  kind : CopyKind
  strand : Nat
  dst : Cap
  dstReg : Nat
  src : Cap
  srcReg : Nat
  aux : Cap
  auxReg : Nat
  auxPa : Nat
  origin : List Int
  scope : Nat
  /-- The copy writes sealed blocks (R310). -/
  blocks : Bool
  started : Bool
  prefixN : Nat
  /-- Bytes that the barrier has received (R314). -/
  sub : Nat
  flags : BitVec 8
  /-- Bytes that this copy has overwritten, by physical address, as they were before; kept when its destination meets the span of its source
  or its scale tensor (R311). -/
  old : Sparse (Option Byte)
  deriving DecidableEq, Repr

/-- One copy queue (R297, R298, R321). `late` are completed operations beyond an unbroken run. -/
structure CopyQueue where
  ops : List CopyOp
  halted : Bool
  issued : Nat
  done : Nat
  late : List Nat
  record : BitVec 512
  deriving DecidableEq, Repr

/-- A copy queue after reset. -/
def CopyQueue.reset : CopyQueue := { ops := [], halted := false, issued := 0, done := 0, late := [], record := 0 }

/-- A line of an L1 (R254): the physical address divided by 128, a virtual address in it, whether its page is marked evict-first, the OBJID
that its requests carry when its page has INTEG (R451), its dirty mask of one bit per byte, its tag bit per granule, and, on such a page, which
bytes it holds: those written since it entered, or all once a read has brought it from a home that knew it sound. -/
structure L1Line where
  line : Nat
  va : Nat
  ef : Bool
  integ : Option Nat
  dirty : BitVec 128
  tags : BitVec 2
  known : BitVec 128
  deriving DecidableEq, Repr

/-- An entry of a TLB (R389, R434): the partition, the page as virtual address divided by its size, the size's exponent, and the lines of
the page table that its walk read, as physical address divided by 128. -/
structure TlbEntry where
  pid : Nat
  page : Nat
  bits : Nat
  lines : List Nat
  deriving DecidableEq, Repr

/-- An entry of an object cache (R44, R434): the partition, the OBJID, and the line of the object table that holds it. -/
structure ObjEntry where
  pid : Nat
  objid : Nat
  line : Nat
  deriving DecidableEq, Repr

/-- A line of a register cache (R247): context × 64 + line of the strand image, and whether it has been written since it was fetched. -/
structure RegLine where
  key : Nat
  written : Bool
  deriving DecidableEq, Repr

/-- A core (chapters 9 to 12): shared registers, bank state, matrix engine, copy queues, and the directories of its caches. -/
structure Core where
  g : Sparse Word
  gEmpty : BitVec 16
  gPend : List GWrite
  slotFixed : Bool
  /-- SLOTMODE writes on their way: the cycle each governs from, and its value (R234). -/
  slotNext : List (Nat × Bool)
  admitMask : BitVec 16
  nb : BitVec 2
  mflags : BitVec 8
  csrOld : List OldCsr
  bfmt : Sparse Byte
  locks : Sparse (Option Lock)
  /-- SPLOCKs that wait, oldest first: bank, strand, stall count (R263). -/
  lockQ : List (Nat × Nat × Fin 4)
  reqs : List BankReq
  arrivals : List Arrival
  blocks : Sparse (Option BlockRec)
  active : Sparse (BitVec 16)
  shadow : Sparse (BitVec 16)
  acc : Sparse (BitVec 32)
  mq : List MatOp
  mqIssued : Nat
  mqDone : Nat
  mqLate : List Nat
  /-- MSTOREs that have completed while an operation accepted before them has not, in the order of acceptance (R278). -/
  mqStored : List MatOp
  shadowNew : Bool
  cq : Sparse CopyQueue
  window : Nat
  winRun : Nat
  /-- Lines of the register cache, most recently used first (R247). -/
  rcache : List RegLine
  /-- Lines of the L1, most recently used first (R254). -/
  l1 : List L1Line
  /-- Entries of the L1 TLB, most recently used first (R389). -/
  tlb : List TlbEntry
  /-- Entries of the object cache, most recently used first (R44). -/
  objc : List ObjEntry
  /-- An L1CFG write that waits for the banks it changes to drain (R253). -/
  l1cfgNext : Option (BitVec 2)
  deriving DecidableEq, Repr

/-- A core after reset: NB = 1, W = 256, everything else zero or empty. -/
def Core.reset : Core :=
  { g := [], gEmpty := 0, gPend := [], slotFixed := false, slotNext := [], admitMask := 0, nb := 1, mflags := 0, csrOld := [],
    bfmt := [], locks := [], lockQ := [], reqs := [], arrivals := [], blocks := [], active := [], shadow := [], acc := [],
    mq := [], mqIssued := 0, mqDone := 0, mqLate := [], mqStored := [], shadowNew := false, cq := [], window := 256, winRun := 0,
    rcache := [], l1 := [], tlb := [], objc := [], l1cfgNext := none }

/-- A value on a register link (R332, R333): its target context and register, and the cycle from which it may be applied. `go` marks a
head that met R335 at the start of this cycle. -/
structure LinkEntry where
  ctx : Nat
  num : Nat
  val : RegVal
  ready : Nat
  go : Bool
  deriving DecidableEq, Repr

/-- A member of a skein (R337): context 16 × core + context of the cluster, its ARR and APH. -/
structure Member where
  id : Nat
  arr : Bool
  aph : Bool
  deriving DecidableEq, Repr

/-- A skein (R337). -/
structure Skein where
  members : List Member
  phase : Bool
  count : BitVec 16
  deriving DecidableEq, Repr

/-- A dissolved skein. -/
def Skein.reset : Skein := { members := [], phase := false, count := 0 }

/-- A method as the dispatcher uses it (Table 14.4), already found well formed, with the first 128-byte line of its entry's code as the walk
that found it read it (R345); none where that line is not mapped, or of a method that is in no cache. -/
structure Method where
  key : Word
  entry : Cap
  line : Option (BitVec 1024)
  conv : Bool
  cidx : Nat
  ckind : Nat
  cop : Nat
  scnt : Nat
  re : Bool
  rlo : Nat
  rhi : Nat
  outm : Nat
  outk : List Nat
  deriving DecidableEq, Repr

/-- A conversion of a launch (R346, R347): its method, operand and buffer, the x registers of its task, the pool and the slot its region
came from, and how far it is. -/
structure Convert where
  method : Method
  src : Cap
  buf : Cap
  xs : List Word
  pool : Cap
  slot : Nat
  region : Cap
  started : Bool
  finished : Bool
  deriving DecidableEq, Repr

/-- Where a launch came from: the strand that the dispatcher started for the launching task, or a host record at a physical address
with its completion word (R353, R356, R466). -/
inductive Launcher
  | task (head : Nat)
  | host (pid : Nat) (record : Nat) (cwAddr : Nat) (cwVal : Word)
  deriving DecidableEq, Repr

/-- A launch record (R351). `queues` are the target clusters and the flat index that each starts next; `doneN` counts tasks that passed
TEND; `status` is the (flat index, x10) that R353 keeps. -/
structure Launch where
  gen : Nat
  source : Launcher
  detach : Bool
  method : Method
  ops : List Cap
  c31 : Cap
  xs : List Word
  d0 : Nat
  d1 : Nat
  d2 : Nat
  queues : List (Nat × Nat)
  converts : List Convert
  doneN : Nat
  status : Option (Nat × Word)
  complete : Bool
  deriving DecidableEq, Repr

/-- A recorded delivery of a query slot (R364, R368): page, position in the list, cause, buffer, and its age. -/
structure Delivery where
  page : Nat
  pos : Nat
  cause : Nat
  buf : Nat
  age : Nat
  deriving DecidableEq, Repr

/-- The states of a query slot (Table 15.2). -/
inductive SlotState | free | pending | active | drained
  deriving DecidableEq, Repr

/-- A query slot (R361, R362): `left` are the pages not yet delivered, `queue` the deliveries not returned, `refs` the buffers of
returned ones still held. `age` orders Pending slots. -/
structure KvSlot where
  state : SlotState
  owner : Nat
  ids : List Nat
  obase : Nat
  kpool : Cap
  vpool : Cap
  age : Nat
  left : List Nat
  queue : List Delivery
  refs : List Nat
  deriving DecidableEq, Repr

/-- A free query slot. -/
def KvSlot.reset : KvSlot :=
  { state := .free, owner := 0, ids := [], obase := 0, kpool := Cap.null, vpool := Cap.null, age := 0, left := [],
    queue := [], refs := [] }

/-- A KVSUB that waits for a query slot (R361): its fields and the list as it read it. -/
structure KvReq where
  strand : Nat
  args : RArgs
  ids : List Nat
  obase : Nat
  kpool : Cap
  vpool : Cap
  deriving DecidableEq, Repr

/-- The running layer pass (R363, R364): the page being worked on, its bytes or the cause of its failed fetch, and the cores it
is still to be delivered to. -/
structure Pass where
  page : Option Nat
  fetched : Option (List Byte)
  cause : Nat
  cores : List Nat
  deriving DecidableEq, Repr

/-- A partial in a merge window (Table 15.4). -/
structure Partial where
  m : BitVec 32
  l : BitVec 32
  o : List (BitVec 32)
  deriving DecidableEq, Repr

/-- A merge slot (Table 15.4). -/
structure MergeSlot where
  valid : Bool
  dim : Nat
  nord : Nat
  next : Nat
  m : BitVec 32
  l : BitVec 32
  o : List (BitVec 32)
  flags : BitVec 8
  senders : List Nat
  win : Sparse (Option Partial)
  deriving DecidableEq, Repr

/-- A merge slot that is not VALID. -/
def MergeSlot.reset : MergeSlot :=
  { valid := false, dim := 0, nord := 0, next := 0, m := 0xFF800000, l := 0, o := [], flags := 0, senders := [], win := [] }

/-- An MGPUT or MGGET that waits at its merge slot (R373, R375): its fields, the object that it addresses, and the places and format of
its elements. -/
structure MgReq where
  strand : Nat
  args : RArgs
  get : Bool
  slot : Nat
  ord : Nat
  m : BitVec 32
  l : BitVec 32
  objid : Nat
  places : List ElemAt
  fmt : Nat
  deriving DecidableEq, Repr

/-- A cluster (chapters 14 and 15). -/
structure Cluster where
  /-- Link buffers by 2 × core + direction (R332), oldest first. -/
  links : Sparse (List LinkEntry)
  skeins : Sparse Skein
  launches : Sparse (Option Launch)
  /-- GEN of each launch record's next use (R351). -/
  gens : Sparse Nat
  /-- Launches that this cluster starts tasks of, as (cluster, slot) of their records, in the order of acceptance (R352). -/
  order : List (Nat × Nat)
  /-- The method cache, most recently used first (R345). -/
  mcache : List Method
  kv : Sparse KvSlot
  kvAge : Nat
  /-- KVSUBs that wait for a query slot, oldest first. -/
  kvWait : List KvReq
  pass : Option Pass
  merge : Sparse MergeSlot
  mgWait : List MgReq
  /-- The core offline mask in force, and as COREOFF was last written (R446). -/
  coreoff : BitVec 8
  coreoffNew : BitVec 8
  /-- Entries of the L2 TLB, most recently used first (R389). -/
  tlb : List TlbEntry
  deriving DecidableEq, Repr

/-- A cluster after reset. -/
def Cluster.reset : Cluster :=
  { links := [], skeins := [], launches := [], gens := [], order := [], mcache := [], kv := [], kvAge := 0, kvWait := [],
    pass := none, merge := [], mgWait := [], coreoff := 0, coreoffNew := 0, tlb := [] }

/-- A line of an L2 slice (R386): its way, line index L of R385, owner, dirty mask of one bit per byte, evict-first mark, retention slot and
protection bit, and, of a page with INTEG, the OBJID that the last request carried and which bytes it holds: those written since it entered,
or all once a read has verified its block (R451). Its granule tags are those of `State.tags`. -/
structure L2Line where
  way : Nat
  line : Nat
  pid : Nat
  dirty : BitVec 128
  integ : Option Nat
  known : BitVec 128
  ef : Bool
  slot : Option Nat
  prot : Bool
  deriving DecidableEq, Repr

/-- A retention slot of a partition on a die (R390). -/
structure Retention where
  valid : Bool
  lo : Nat
  hi : Nat
  res : Nat
  hit : Word
  miss : Word
  ovf : Word
  deriving DecidableEq, Repr

/-- A retention slot after reset. -/
def Retention.reset : Retention := { valid := false, lo := 0, hi := 0, res := 0, hit := 0, miss := 0, ovf := 0 }

/-- An entry of a link queue (R468 to R474). `red` tells LNRED from LNCPY; `aux` is 0 none, 1 completion word, 2 barrier object, at
`auxPa`. `prefixN` elements are delivered, and `sub` bytes are subtracted from the barrier. `sent` and `own` are an LNRED's chunk from
`prefixN` on once it has been read and sent, `before` what its destination held then, `met` that the partner's format and extent have been found
equal, and `stop` that the partner has halted: the chunk that this half halts at, and its LSTAT (R475). -/
structure LinkOp where
  seq : Nat
  red : Bool
  val : BitVec 32
  aux : Nat
  strand : Nat
  dst : Cap
  dstReg : Reg
  src : Cap
  srcReg : Reg
  auxCap : Cap
  auxReg : Nat
  auxPa : Nat
  started : Bool
  prefixN : Nat
  sub : Nat
  flags : BitVec 8
  sent : Bool
  own : List (BitVec 32)
  before : List (BitVec 32)
  met : Bool
  stop : Option (Nat × Nat)
  deriving DecidableEq, Repr

/-- The link queue of a partition on a die (R468, R475). -/
structure LinkQueue where
  ops : List LinkOp
  halted : Bool
  issued : Nat
  done : Nat
  record : BitVec 512
  deriving DecidableEq, Repr

/-- A link queue after reset. -/
def LinkQueue.reset : LinkQueue := { ops := [], halted := false, issued := 0, done := 0, record := 0 }

/-- A region map entry (R429): owner and ENC. -/
structure Region where
  pid : Nat
  enc : Bool
  deriving DecidableEq, Repr

/-- Bytes of a line of a page with INTEG on their way to GDDR7 (R451): owner, line index L, which bytes, and the OBJID of the request. -/
structure GddrWrite where
  pid : Nat
  line : Nat
  bytes : BitVec 128
  objid : Nat
  deriving DecidableEq, Repr

/-- A die (chapter 17 and the link engine of chapter 22). -/
structure Die where
  /-- L2 sets by 2,048 × slice + set, most recently used line first. -/
  l2 : Sparse (List L2Line)
  /-- Retention slots by 8 × PARTID + slot. -/
  ret : Sparse Retention
  lq : Sparse LinkQueue
  regions : Sparse (Option Region)
  /-- Walk marks by line index L: lines that a table walk or an object-table read has read (R434). -/
  marks : Sparse Bool
  /-- Writes at the memory controllers, oldest first (R451). -/
  writes : List GddrWrite
  /-- Blocks of 256 bytes, by die-local address divided by 256, whose MAC can never verify (R451). -/
  noMac : Sparse Bool
  /-- The descheduled partition whose state shadow storage holds (R447). -/
  shadow : Option Nat
  /-- Corrected and logged errors (R397). -/
  errors : Nat
  deriving DecidableEq, Repr

/-- A die after reset. -/
def Die.reset : Die := { l2 := [], ret := [], lq := [], regions := [], marks := [], writes := [], noMac := [], shadow := none, errors := 0 }

/-- Whether a partition runs (R454 RUNSTATE); `halted` is a partition that MIGCMD 1 has stopped (R480). -/
inductive RunState | running | halted | descheduled | gated | terminated
  deriving DecidableEq, Repr

/-- What a swap or MIGCMD 2 keeps of a partition (R447, R480): contexts, cores and clusters by the numbers they had, and, where they are not at
SAVEBASE, the scratchpad bytes, tags and full/empty bits of its windows by address. -/
structure Saved where
  /-- The clusters that the partition held. -/
  held : List Nat
  /-- Dies whose part of step 2 has been moved from shadow storage to SAVEBASE to make room (R447). -/
  moved : List Nat
  /-- Cores beyond the first 64 of their die, whose state step 2 wrote to SAVEBASE (R448). -/
  bulk : List Nat
  strands : Sparse Strand
  cores : Sparse Core
  clusters : Sparse Cluster
  mem : Sparse Byte
  tags : Sparse Bool
  fe : Sparse (BitVec 2)
  deriving DecidableEq, Repr

/-- A partition (chapters 17, 21, 22): descriptor, partition-scope control registers, sweeps, keys, administrative window. -/
structure Partition where
  present : Bool
  desc : Descriptor
  tvecCode : Cap
  tvecData : Cap
  convpool : Cap
  mtbase : Word
  otbase : Word
  pmon : Word
  wmask : BitVec 16
  sweepNext : Nat
  sweepDone : Nat
  sweepActive : Bool
  sweepPend : Bool
  /-- Of the active sweep of a paired partition: this card's half has completed, and the peer card's has (R443). -/
  sweepHere : Bool
  sweepThere : Bool
  run : RunState
  saved : Option Saved
  meas : List (BitVec 512)
  dataKey : BitVec 256
  macKey : BitVec 512
  mbctl : Word
  mbtail : BitVec 16
  mbhead : BitVec 16
  pairctl : BitVec 8
  paired : Option Nat
  dirtyEn : Bool
  dirtyIdx : BitVec 32
  /-- Pages whose bit of the dirty bitmap is set, by page number in ascending region order (R479). -/
  dirty : Sparse Bool
  migstat : Nat
  nonce : BitVec 512
  /-- The evidence in the EVID window, as the last write of a nonce made it (R454). -/
  evid : List Byte
  /-- The KEYIMP window by doublewords: the status of the last import in the first, the request as written in the others (R454, log 82). -/
  keyImp : Sparse Word
  /-- EVENTS words 0 to 3 (R485). -/
  ev : Sparse Word
  errlog : Nat
  /-- Completion words of host launches, by physical address and value, that wait for posted packets to be acknowledged (R356, R461). -/
  cwords : List (Nat × Word)
  /-- The all-asleep tree's output when it was last looked at (R403). -/
  asleep : Bool
  liveTags : List (BitVec 32)
  deriving DecidableEq, Repr

/-- A descriptor of zeros. -/
def Descriptor.zero : Descriptor :=
  { partid := 0, clusters := 0, ptroot := 0, n1 := 0, imgbase := 0, frameid := 0, framesz := 0, frameva := 0, vbase := 0,
    vcount := 0, savebase := 0, regions := [], encRegions := [], wmask := 0, otbase := 0 }

/-- No partition. -/
def Partition.reset : Partition :=
  { present := false, desc := Descriptor.zero, tvecCode := Cap.null, tvecData := Cap.null, convpool := Cap.null, mtbase := 0,
    otbase := 0, pmon := 0, wmask := 0xFFFF, sweepNext := 0, sweepDone := 0, sweepActive := false, sweepPend := false, sweepHere := false, sweepThere := false,
    run := .running, saved := none, meas := [0, 0, 0, 0], dataKey := 0, macKey := 0, mbctl := 0, mbtail := 0,
    mbhead := 0, pairctl := 0, paired := none, dirtyEn := false, dirtyIdx := 0, dirty := [], migstat := 0, nonce := 0, evid := [],
    keyImp := [], ev := [], errlog := 0, cwords := [], asleep := false, liveTags := [] }

/-- The Seam (R457 to R462). -/
inductive Seam | untrained | up | retraining | down
  deriving DecidableEq, Repr

/-- What the package sends out: answers to the host and the peer card, interrupts to the host, packets to the peer. -/
inductive Reply
  /-- Data of a host read (R481). -/
  | hostData (value : Word)
  /-- A CXL.mem answer: data, or unsupported request (R465). -/
  | cxl (value : Option Word)
  /-- An MSI-X vector of a virtual function (R466, R485). -/
  | msix (pid vector : Nat)
  /-- Data of a peer load, with the tag of its granule, or the pre-value of a peer atomic (R459, R461). -/
  | peerData (value : BitVec 512) (tag : Bool)
  /-- A peer load met a block that does not verify (R451). -/
  | peerFailed
  /-- A read of the peer card's memory by a strand, an engine, a table walk or an object-table read (R460), at an address of its line. -/
  | peerRead (pa : Nat)
  /-- An acknowledgement to the peer (R461, R460). -/
  | peerAck
  /-- A store to the peer card's memory (R461): address, bytes, value. -/
  | peerWrite (pa n value : Nat)
  /-- A capability store to it. -/
  | peerWriteCap (pa : Nat) (value : Cap)
  /-- An atomic request to the peer card's memory (R460, R461): address, 8 bytes or 4, operation as PEER_ATOMIC numbers them, operand,
  expected value. -/
  | peerAtomic (pa : Nat) (wide : Bool) (op : Nat) (operand expected : Word)
  /-- An invalidation of what derives from a line of the page table or the object table (R458). -/
  | peerInvalidate (pid pa : Nat)
  /-- A WAKE sent to the peer card (R243). -/
  | peerWake (pid target : Nat)
  /-- An OFREE update sent to the peer (R438). -/
  | peerOfree (pid objid : Nat)
  /-- An event for the monitor, which is a strand of the peer card (R401). -/
  | peerEvent (pid target : Nat) (e : Event)
  /-- A partition-scope register that both halves hold was written here (R458): its CSR number and value, or the CONVPOOL capability. -/
  | peerRegister (pid num : Nat) (value : Word)
  | peerConvpool (pid : Nat) (value : Cap)
  /-- This card's half of a sweep has completed (R443). -/
  | peerSweep (pid : Nat)
  /-- An LNRED chunk sent to the partner (R473): tag, number, format, extent, elements. -/
  | chunk (pid : Nat) (tag : BitVec 32) (index fmt extent : Nat) (data : List (BitVec 32))
  /-- A halt of an LNRED half told to the partner: tag, chunk, and the LSTAT it shall record (R475). -/
  | partnerHalt (pid : Nat) (tag : BitVec 32) (index lstat : Nat)
  /-- Signed evidence (R454): its 592 signed bytes and the signature. -/
  | evidence (pid : Nat) (body : List Byte) (sig : BitVec 37016)
  /-- The status of a key import (R454). -/
  | keyStatus (pid status : Nat)
  /-- A word of the dirty bitmap (R479). -/
  | dirtyWord (pid : Nat) (value : Word)
  /-- A firmware image was discarded (R452). -/
  | firmwareRefused
  deriving DecidableEq, Repr

/-- The ordered lanes of the Seam (R460). -/
inductive Lane | posted | nonPosted | completion
  deriving DecidableEq, Repr

/-- The package: both dies, every partition, memory, the Seam and the host link, and the model's own fields. -/
structure State where
  /-- Strands by STRID (Table 1.10). -/
  strands : Sparse Strand
  /-- Cores by STRID / 16. -/
  cores : Sparse Core
  /-- Clusters by STRID / 128. -/
  clusters : Sparse Cluster
  dies : Sparse Die
  /-- Partitions by PARTID. -/
  parts : Sparse Partition
  /-- Memory by physical address (R428), GDDR7 and the scratchpad windows. -/
  mem : List Host.Cell
  /-- Granule tags by physical address divided by 64 (R28). -/
  tags : Sparse Bool
  /-- Of bytes of pages with INTEG that are written and not yet written back: what GDDR7 still holds, by physical address (R451). -/
  under : Sparse (Option Byte)
  /-- F (bit 0) and W (bit 1) of scratchpad words by physical address divided by 8 (R261). -/
  fe : Sparse (BitVec 2)
  /-- The version counters of Thimble (R449). -/
  versions : Sparse (BitVec 48)
  epoch : Word
  powerOns : Nat
  m0 : BitVec 512
  m1 : BitVec 512
  firmware : Bool
  clocksOff : Bool
  /-- GiB of GDDR7 on each die: 48, 72 or 96 (Table 0.2, R428). -/
  dieGiB : Nat
  /-- The arithmetic clock in steps of 100 MHz, and the power limit in watts, 0 while none has been set (R456). -/
  clock : Nat
  powerLimit : Nat
  /-- The readings of a cluster's temperature, voltage and process monitors, as they were last taken (R456). -/
  sense : Sparse Word
  cards : Bool
  seam : Seam
  /-- Consecutive failed replays of a flit (R459). -/
  replays : Nat
  hostLink : Option (Nat × Nat × Bool)
  hdmpart : BitVec 8
  hdmNext : Option (BitVec 8)
  /-- Posted packets to the peer that are not yet acknowledged (R458, R461): by the STRID of the strand whose write it is, or by 4,096 +
  PARTID for an invalidation. -/
  unacked : Sparse Nat
  outbox : List Reply
  /-- Model's own: the cycle of the package, which is every core's rotation counter t (R227). -/
  cycle : Nat
  /-- Model's own: the actor of this cycle that moves next. -/
  turn : Nat
  /-- Model's own: the strand whose instruction exec performs. -/
  cur : Nat
  /-- Model's own: events from outside the strands still to happen, oldest first. -/
  agenda : List Instr
  /-- Model's own: free values taken so far. -/
  freeCtr : Nat
  /-- Model's own: the instruction tried last was held before issue (R229). -/
  stalled : Bool
  /-- Model's own: the strands that were ready at the start of this cycle (R228). -/
  ready : List Nat
  deriving DecidableEq, Repr

/-- The machine right after power-on reset (R5, R452): nothing runs, no partition exists, the device awaits firmware. -/
def State.reset : State :=
  { strands := [], cores := [], clusters := [], dies := [], parts := [], mem := [], tags := [], under := [], fe := [], versions := [],
    epoch := Config.epochAtPowerOn 0, powerOns := 0, m0 := 0, m1 := 0, firmware := false, clocksOff := false, dieGiB := 96, clock := 29,
    powerLimit := 0, sense := [], cards := false, seam := .untrained, replays := 0, hostLink := none, hdmpart := 0, hdmNext := none,
    unacked := [], outbox := [], cycle := 0, turn := 0, cur := 0, agenda := [], freeCtr := 0,
    stalled := false, ready := [] }

end Sys2Proof.Machine
end

