-- ==== Sys2Proof/Machine/Ops.lean ====
section
/-! DEFINITION. The named operations over registers, memory and partitions that every chapter shares: accessors, register reads and
writes, bytes, the page-table walk, the object table, pending events, trap entry and return. -/

namespace Sys2Proof.Machine

/-- The causes of Table 7.7. -/
inductive Cause
  | illegal | rzt | stallshort | priv | ebreak | ecall | capTag | capBound | capPerm | capSeal | capStale | capReach
  | capFormat | capDerive | pageFault | pageAttr | align | replay | syncTimeout | waiterWake | engfault | integrity
  | sealedBank | nomethod | convpool | mcast | lockhold | kvorder | allasleep | ue | link | tstack
  deriving DecidableEq, Repr

/-- The codes of Table 7.7. -/
def Cause.code (c : Cause) : BitVec 8 :=
  match c with
  | .illegal => 0x01 | .rzt => 0x02 | .stallshort => 0x03 | .priv => 0x04 | .ebreak => 0x05 | .ecall => 0x06
  | .capTag => 0x08 | .capBound => 0x09 | .capPerm => 0x0A | .capSeal => 0x0B | .capStale => 0x0C | .capReach => 0x0D
  | .capFormat => 0x0E | .capDerive => 0x0F | .pageFault => 0x10 | .pageAttr => 0x11 | .align => 0x12 | .replay => 0x14
  | .syncTimeout => 0x15 | .waiterWake => 0x16 | .engfault => 0x18 | .integrity => 0x19 | .sealedBank => 0x1A
  | .nomethod => 0x1B | .convpool => 0x1C | .mcast => 0x1D | .lockhold => 0x1E | .kvorder => 0x1F | .allasleep => 0x20
  | .ue => 0x21 | .link => 0x22 | .tstack => 0x24

/-- The codes of Table 7.7, the only ones that are ever raised (R216). -/
def causeCodes : List (BitVec 8) :=
  [.illegal, .rzt, .stallshort, .priv, .ebreak, .ecall, .capTag, .capBound, .capPerm, .capSeal, .capStale, .capReach, .capFormat, .capDerive,
   .pageFault, .pageAttr, .align, .replay, .syncTimeout, .waiterWake, .engfault, .integrity, .sealedBank, .nomethod, .convpool, .mcast,
   .lockhold, .kvorder, .allasleep, .ue, .link, .tstack].map Cause.code

/-- A walk of the page table that has come to a fault: the entry that a TLB would hold of its leaf, and the addresses of the entries that it
has read (R389). -/
structure Walk where
  entry : TlbEntry
  path : List Nat
  deriving DecidableEq, Repr

/-- What a trap writes into TCAUSE, TVAL and TCAP (R10), and the walk that came to it where there is one. -/
structure TrapInfo where
  cause : Cause
  tval : Word
  tcap : Word
  walk : Option Walk := none
  deriving DecidableEq, Repr

/-- Why an instruction's effect does not take place now. -/
inductive Stop
  /-- Fault of R10: the instruction is abandoned and traps. -/
  | trap (t : TrapInfo)
  /-- The strand parks; the instruction is issued again when the wait is over (R21, R23). -/
  | park (w : Wait)
  /-- The strand stays Running and the instruction is not issued (R229). -/
  | hold
  deriving DecidableEq, Repr

/-- `Fault(cause, val, capn)` of R10. -/
def fault {α : Type} (c : Cause) (v : Word) (cap : Nat) : Except Stop α :=
  .error (.trap { cause := c, tval := v, tcap := BitVec.ofNat 64 cap })

/-- Raises the trap when the test fails. -/
def need (ok : Bool) (c : Cause) (v : Word) (cap : Nat) : Except Stop Unit :=
  if ok then .ok () else fault c v cap

/-! Accessors. -/

/-- The strand with the given STRID. -/
def State.strand (s : State) (n : Nat) : Strand := sget Strand.reset s.strands n
/-- The core with number STRID / 16. -/
def State.core (s : State) (n : Nat) : Core := sget Core.reset s.cores n
/-- The cluster with number STRID / 128. -/
def State.cluster (s : State) (n : Nat) : Cluster := sget Cluster.reset s.clusters n
/-- A die. -/
def State.die (s : State) (n : Nat) : Die := sget Die.reset s.dies n
/-- The partition with the given PARTID. -/
def State.part (s : State) (n : Nat) : Partition := sget Partition.reset s.parts n

/-- One strand replaced. -/
def State.setStrand (s : State) (n : Nat) (t : Strand) : State := { s with strands := sset Strand.reset s.strands n t }
/-- One core replaced. -/
def State.setCore (s : State) (n : Nat) (c : Core) : State := { s with cores := sset Core.reset s.cores n c }
/-- One cluster replaced. -/
def State.setCluster (s : State) (n : Nat) (c : Cluster) : State := { s with clusters := sset Cluster.reset s.clusters n c }
/-- One die replaced. -/
def State.setDie (s : State) (n : Nat) (d : Die) : State := { s with dies := sset Die.reset s.dies n d }
/-- One partition replaced. -/
def State.setPart (s : State) (n : Nat) (p : Partition) : State := { s with parts := sset Partition.reset s.parts n p }

/-- The core of a strand. -/
def coreOf (n : Nat) : Nat := n / 16
/-- The cluster of a strand. -/
def clusterOf (n : Nat) : Nat := n / 128
/-- The die of a strand. -/
def dieOf (n : Nat) : Nat := n / 2048

/-- The strand whose instruction is performed. -/
def State.me (s : State) : Strand := s.strand s.cur
/-- That strand replaced. -/
def State.setMe (s : State) (t : Strand) : State := s.setStrand s.cur t
/-- The core of the strand whose instruction is performed. -/
def State.myCore (s : State) : Core := s.core (coreOf s.cur)
/-- That core replaced. -/
def State.setMyCore (s : State) (c : Core) : State := s.setCore (coreOf s.cur) c

/-- The next free value (log 4). -/
def State.fresh (s : State) : Word × State := (Config.freeWord s.freeCtr, { s with freeCtr := s.freeCtr + 1 })

/-! Registers of a strand (Table 1.1, R8, R20). -/

/-- Bit `r` of a mask set. -/
def maskSet {n : Nat} (m : BitVec n) (r : Nat) : BitVec n := m ||| BitVec.ofNat n (2 ^ r)
/-- Bit `r` of a mask cleared. -/
def maskClear {n : Nat} (m : BitVec n) (r : Nat) : BitVec n := m &&& ~~~(BitVec.ofNat n (2 ^ r))

/-- x[r]; x0 reads zero (R8). -/
def Strand.readX (t : Strand) (r : Nat) : Word := if r = 0 then 0 else sget 0 t.x r
/-- c[r]; c0 reads the null capability (R8). -/
def Strand.readC (t : Strand) (r : Nat) : Cap := if r = 0 then Cap.null else sget Cap.null t.c r
/-- v[r]; a register with its zero-on-read mark reads zero (R18). -/
def Strand.readV (t : Strand) (r : Nat) : Vec := if t.zor.getLsbD r then 0 else sget 0 t.v r
/-- p[r]; p0 reads all ones (R8). -/
def Strand.readP (t : Strand) (r : Nat) : Pred := if r = 0 then BitVec.allOnes 128 else sget 0 t.p r

/-- A write of x[r] takes its value and sets it full; x0 discards it (R8, R20). -/
def Strand.setX (t : Strand) (r : Nat) (v : Word) : Strand :=
  if r = 0 then t else { t with x := sset 0 t.x r v, emptyX := maskClear t.emptyX r, dropX := maskClear t.dropX r }
/-- A write of c[r]. -/
def Strand.setC (t : Strand) (r : Nat) (v : Cap) : Strand :=
  if r = 0 then t else { t with c := sset Cap.null t.c r v, emptyC := maskClear t.emptyC r }
/-- A write of v[r] clears its zero-on-read mark (R18). -/
def Strand.setV (t : Strand) (r : Nat) (v : Vec) : Strand :=
  { t with v := sset 0 t.v r v, emptyV := maskClear t.emptyV r, zor := maskClear t.zor r, dropV := maskClear t.dropV r }
/-- A write of p[r]; p0 discards it. -/
def Strand.setP (t : Strand) (r : Nat) (v : Pred) : Strand := if r = 0 then t else { t with p := sset 0 t.p r v }

/-- The bits of the bytes below `n` that a mask of bytes names. -/
def byteBits (keep : Pred) (n : Nat) : Nat :=
  match n with
  | 0 => 0
  | k + 1 => byteBits keep k + (keep.getLsbD k).toNat * 255 * 2 ^ (8 * k)

/-- A register written but for the bytes of a mask (R144). -/
def keepBytes (keep : Pred) (old new : Vec) : Vec :=
  let k := BitVec.ofNat 1024 (byteBits keep 128)
  (old &&& k) ||| (new &&& ~~~k)

/-- A write of any register. A merging write takes the bytes that it keeps from what the register reads as when it completes: zero under a
zero-on-read mark (R144). -/
def Strand.setReg (t : Strand) (r : Nat) (v : RegVal) : Strand :=
  match v with
  | .x w => t.setX r w
  | .c w => t.setC r w
  | .v w => t.setV r w
  | .p w => t.setP r w
  | .m w keep => t.setV r (keepBytes keep (t.readV r) w)

/-- The class of a value. -/
def RegVal.cls (v : RegVal) : RegCls :=
  match v with
  | .x _ => .x
  | .c _ => .c
  | .v _ => .v
  | .p _ => .p
  | .m _ _ => .v

/-- A fixed-latency result (R62): `lat` 0 is a variable-latency operation, whose result is in place at once (R63). Writes to x0,
c0 and p0 are discarded. -/
def Strand.put (t : Strand) (cycle lat r : Nat) (v : RegVal) : Strand :=
  if lat = 0 then t.setReg r v
  else if r = 0 && decide (v.cls ≠ .v) then t
  else { t with pend := t.pend ++ [{ due := cycle + lat, num := r, val := v }] }

/-- The pending writes that are due take effect, in program order (R62, R66). -/
def Strand.commitUpTo (t : Strand) (cycle : Nat) : Strand :=
  (t.pend.filter fun w => decide (w.due ≤ cycle)).foldl (fun t w => t.setReg w.num w.val)
    { t with pend := t.pend.filter fun w => decide (cycle < w.due) }

/-- Every pending write takes effect. -/
def Strand.commitAll (t : Strand) : Strand := t.pend.foldl (fun t w => t.setReg w.num w.val) { t with pend := [] }

/-- The result of the current instruction into x[r]. -/
def State.putX (s : State) (lat : Nat) (r : Nat) (v : Word) : State := s.setMe (s.me.put s.cycle lat r (.x v))
/-- The result of the current instruction into c[r]. -/
def State.putC (s : State) (lat : Nat) (r : Nat) (v : Cap) : State := s.setMe (s.me.put s.cycle lat r (.c v))
/-- The result of the current instruction into v[r]. -/
def State.putV (s : State) (lat : Nat) (r : Nat) (v : Vec) : State := s.setMe (s.me.put s.cycle lat r (.v v))
/-- The result of a merging instruction into v[r], which leaves the bytes of `keep` as they are (R144). -/
def State.putM (s : State) (lat : Nat) (r : Nat) (keep : Pred) (v : Vec) : State := s.setMe (s.me.put s.cycle lat r (.m v keep))
/-- The result of the current instruction into p[r]. -/
def State.putP (s : State) (lat : Nat) (r : Nat) (v : Pred) : State := s.setMe (s.me.put s.cycle lat r (.p v))

/-- Numerical flags merge into FFLAGS by OR (R50, R97). -/
def State.orFlags (s : State) (f : BitVec 8) : State := s.setMe { s.me with fflags := s.me.fflags ||| f }

/-! Physical addresses (R251, R428). -/

/-- What a physical address names. -/
inductive Place
  /-- GDDR7 of a die of this card. -/
  | gddr (die : Nat)
  /-- A tag area. -/
  | tagArea
  /-- Bank `bank` of core `core` of this card. -/
  | bank (core bank : Nat)
  /-- GDDR7 of the peer card. -/
  | peer
  /-- A scratchpad window of the peer card. -/
  | peerWindow
  /-- Nothing. -/
  | hole
  deriving DecidableEq, Repr

/-- Card bit of the package. -/
def State.cardNo (s : State) : Nat := s.cards.toNat

/-- Table 21.1 and R251, for a capacity of `gib` GiB a die. -/
def place (gib card pa : Nat) : Place :=
  let la := pa % 2 ^ 46
  let mine := decide (pa / 2 ^ 47 = card)
  if la / 2 ^ 30 < gib then
    if 2 ^ 30 - 2 ^ 21 ≤ la % 2 ^ 30 then .tagArea
    else if mine then .gddr (pa / 2 ^ 46 % 2) else .peer
  else if 0x3F0000000000 ≤ la ∧ la < 0x3F0008000000 then
    if mine then .bank (pa / 2 ^ 46 % 2 * 128 + la / 2 ^ 20 % 2 ^ 7) (la / 2 ^ 16 % 16) else .peerWindow
  else .hole

/-- Where a physical address lies, seen from this card. -/
def State.place (s : State) (pa : Nat) : Place := Machine.place s.dieGiB s.cardNo pa

/-- The physical address of byte 0 of a core's window (R251). -/
def State.window (s : State) (core : Nat) : Nat :=
  s.cardNo * 2 ^ 47 + core / 128 * 2 ^ 46 + 0x3F0000000000 + core % 128 * 2 ^ 20

/-! Bytes of memory (R3, R28, R29). -/

/-- What an address that is not listed reads as: memory is zeroed before an owner can reach it (R445). -/
def memDefault : Byte := 0

/-- The canonical form of memory. -/
abbrev Memory.wf (m : List Host.Cell) : Prop := swf memDefault m = true

/-- A physical address lies in the peer card's GDDR7. -/
def State.isPeer (s : State) (pa : Nat) : Bool := decide (s.place pa = .peer)

/-- One byte; one of the peer card is whatever that card holds now (log 20). -/
def State.byte (s : State) (pa : Nat) : Byte :=
  if s.isPeer pa then Config.peerByte s.cycle pa else sget memDefault s.mem pa

/-- The little-endian number in `n` bytes. -/
def State.load (s : State) (pa n : Nat) : Nat :=
  match n with
  | 0 => 0
  | k + 1 => (s.byte pa).toNat + 256 * s.load (pa + 1) k

/-- The bytes of memory with the little-endian number `v` in the `n` bytes from `pa`. -/
def memPut (m : List Host.Cell) (pa n v : Nat) : List Host.Cell :=
  match n with
  | 0 => m
  | k + 1 => memPut (sset memDefault m pa (BitVec.ofNat 8 v)) (pa + 1) k (v / 256)

/-- The tags of the granules that hold `[pa, pa + n)` cleared (R29). -/
def tagsClear (t : Sparse Bool) (pa n : Nat) : Sparse Bool :=
  if n = 0 then t else sclear (pa / 64) ((pa + n - 1) / 64 + 1) t

/-- A granule's tag. -/
def State.tagAt (s : State) (pa : Nat) : Bool :=
  if s.isPeer pa then Config.peerTag s.cycle (pa / 64) else sget false s.tags (pa / 64)

/-- A capability read from a granule, tag included (R29). -/
def State.loadCap (s : State) (pa : Nat) : Cap := { tag := s.tagAt pa, bits := BitVec.ofNat 512 (s.load pa 64) }

/-- The region map entry of an address of GDDR7 (R429). -/
def State.regionOf (s : State) (pa : Nat) : Option Region := sget none (s.die (pa / 2 ^ 46 % 2)).regions (pa % 2 ^ 46 / 2 ^ 30)

/-! Partitions. -/

/-- A partition is on the dies: it exists and its state is not swapped out (R444, R447). -/
def Partition.onDies (p : Partition) : Bool :=
  p.present && match p.run with
    | .descheduled => false
    | .terminated => p.saved.isNone
    | _ => true

/-- The PARTID of the partition on the dies that holds a cluster. -/
def State.pidOfCluster (s : State) (cl : Nat) : Option Nat :=
  (s.parts.find? fun e => e.2.onDies && e.2.desc.clusters.getLsbD cl).map (·.1)

/-- The partition of a cluster runs: its engines move (R327, R480). -/
def clusterRuns (s : State) (cl : Nat) : Bool :=
  match s.pidOfCluster cl with
  | some pid => decide ((s.part pid).run = .running)
  | none => true

/-- The register links of a cluster move: its partition runs, or has ended and its monitor is left (R335, R399). -/
def linksMove (s : State) (cl : Nat) : Bool := clusterRuns s cl || (s.pidOfCluster cl).any fun p => decide ((s.part p).run = .terminated)

/-- The PARTID of a strand's partition. -/
def State.pidOf (s : State) (n : Nat) : Option Nat := s.pidOfCluster (clusterOf n)

/-- The partition of the current strand; an absent one when its cluster belongs to none. -/
def State.myPart (s : State) : Partition :=
  match s.pidOf s.cur with
  | some p => s.part p
  | none => Partition.reset

/-- A core is offline (R446). -/
def State.offline (s : State) (core : Nat) : Bool := (s.cluster (core / 8)).coreoff.getLsbD (core % 8)

/-- A core lies in a partition's core map (R446). -/
def State.inCoreMap (s : State) (pid core : Nat) : Bool :=
  decide (s.pidOfCluster (core / 8) = some pid) && !(s.offline core)

/-- The cores of a partition's core map in ascending order. -/
def State.coreMap (s : State) (pid : Nat) : List Nat := (List.range 256).filter (s.inCoreMap pid)

/-- A partition's regions in ascending order, as 128 × die + r. -/
def State.regionsOf (s : State) (pid : Nat) : List Nat :=
  (List.range 256).filter fun k =>
    match sget none (s.die (k / 128)).regions (k % 128) with
    | some r => decide (r.pid = pid)
    | none => false

/-- The dirty bit of the page of a written address, when its partition tracks writes (R479). -/
def State.markDirty (s : State) (pa : Nat) : State :=
  match s.place pa with
  | .gddr d =>
    match s.regionOf pa with
    | some r =>
      let p := s.part r.pid
      if p.dirtyEn then
        let pos := (s.regionsOf r.pid).idxOf (128 * d + pa % 2 ^ 46 / 2 ^ 30)
        s.setPart r.pid { p with dirty := sset false p.dirty (pos * 2 ^ 14 + pa % 2 ^ 30 / 2 ^ 16) true }
      else s
    | none => s
  | _ => s

/-- Line index L of R385. -/
def lineOf (pa : Nat) : Nat := pa % 2 ^ 46 / 2 ^ 7

/-- The line of an address carries a walk mark (R434). -/
def State.marked (s : State) (pa : Nat) : Bool :=
  match s.place pa with
  | .gddr d => sget false (s.die d).marks (lineOf pa)
  | _ => false

/-- Every entry of a TLB or an object cache that derives from a line is dropped (R434). -/
def State.dropDerived (s : State) (line : Nat) : State :=
  { s with cores := smapv Core.reset (fun k => { k with tlb := k.tlb.filter fun e => !(e.lines.contains line),
                                                        objc := k.objc.filter fun e => decide (e.line ≠ line) }) s.cores,
           clusters := smapv Cluster.reset (fun c => { c with tlb := c.tlb.filter fun e => !(e.lines.contains line) }) s.clusters }

/-- The half of a paired partition that owns the line of an address (R458). -/
def State.pairedOwner (s : State) (pa : Nat) : Option Nat :=
  match s.regionOf pa with
  | some r => if (s.part r.pid).paired.isSome then some r.pid else none
  | none => none

/-- The paired card is told to drop what it derived from a line (R434, R458). -/
def State.tellPeer (s : State) (pa : Nat) : State :=
  match s.pairedOwner pa with
  | some pid =>
    { s with outbox := s.outbox ++ [.peerInvalidate pid pa], unacked := sset 0 s.unacked (4096 + pid) (sget 0 s.unacked (4096 + pid) + 1) }
  | none => s

/-- A write of the line of an address sends the paired card an invalidation, which it acknowledges (R434, R458). -/
def State.tells (s : State) (pa : Nat) : Bool := s.marked pa && (s.pairedOwner pa).isSome

/-- A write of the line that holds an address, by any party: what derives from a marked line is invalidated first (R434). -/
def State.noteLine (s : State) (pa : Nat) : State :=
  if s.marked pa then (s.dropDerived (pa / 2 ^ 7)).tellPeer pa else s

/-- The block records of the bytes `[pa, pa + n)` of a bank are no longer valid: what they describe has been overwritten (R293). -/
def State.dropRecords (s : State) (pa n : Nat) : State :=
  match s.place pa with
  | .bank core b =>
    let k := s.core core
    if k.blocks = [] then s
    else
      let lo := 256 * b + pa % 2 ^ 16 / 256
      s.setCore core { k with blocks := sclear lo (256 * b + (pa % 2 ^ 16 + n - 1) / 256 + 1) k.blocks }
  | _ => s

/-- What a write of `n` bytes does beside the bytes and tags: the dirty bitmap (R479), what derives from marked lines (R434), block records
(R293). -/
def State.wrote (s : State) (pa n : Nat) : State :=
  let s := ((s.markDirty pa).noteLine pa).dropRecords pa n
  if pa / 2 ^ 7 = (pa + n - 1) / 2 ^ 7 then s else s.noteLine (pa + n - 1)

/-- A store of `n` bytes at a physical address by anything other than a capability store: bytes written, granule tags cleared
(R29). One to the peer card goes out to it. -/
def State.store (s : State) (pa n v : Nat) : State :=
  if s.isPeer pa then { s with outbox := s.outbox ++ [Reply.peerWrite pa n v] }
  else ({ s with mem := memPut s.mem pa n v, tags := tagsClear s.tags pa n } : State).wrote pa n

/-- A capability store: 512 bits and the tag together (R187). -/
def State.storeCap (s : State) (pa : Nat) (c : Cap) : State :=
  if s.isPeer pa then { s with outbox := s.outbox ++ [Reply.peerWriteCap pa c] }
  else ({ s with mem := memPut s.mem pa 64 c.bits.toNat, tags := sset false s.tags (pa / 64) c.tag } : State).wrote pa 64

/-- An atomic OR of a byte at its home (R433): nothing is written when its bits are set already. One on the peer card goes out to it as an
atomic on the aligned word that holds the byte (R461). -/
def State.orByte (s : State) (pa : Nat) (m : Byte) : State :=
  if s.byte pa &&& m = m then s
  else if s.isPeer pa then
    { s with outbox := s.outbox ++ [.peerAtomic (pa / 4 * 4) false 2 (BitVec.ofNat 64 (m.toNat * 2 ^ (8 * (pa % 4)))) 0] }
  else s.store pa 1 (s.byte pa ||| m).toNat

end Sys2Proof.Machine
end

