-- ==== Sys2Proof/Machine/Pages.lean ====
section
/-! DEFINITION. Translation (R431 to R433), the object table test (R41 check 3, R435), and visits of the Unpicker (R441, R442). -/

namespace Sys2Proof.Machine

/-- How a translated access uses its page. -/
structure Use where
  /-- The access writes. -/
  write : Bool
  /-- It stores a tagged capability (R41 check 11). -/
  tagged : Bool
  /-- It is a copy that moves bytes unchanged, which may write an ENC page (R433). -/
  raw : Bool
  /-- It reads what it writes, as an atomic does (R198, R451). -/
  rmw : Bool := false
  deriving DecidableEq, Repr

/-- A plain read. -/
def useRead : Use := { write := false, tagged := false, raw := false }
/-- A plain write. -/
def useWrite : Use := { write := true, tagged := false, raw := false }

/-- An atomic. -/
def useAtomic : Use := { useWrite with rmw := true }

/-- A leaf entry found by a walk: the entry's address and value, the size of its page in bits, and the addresses of the entries that the
walk read, the root's first. -/
structure Leaf where
  at_ : Nat
  entry : Nat
  bits : Nat
  path : List Nat
  deriving DecidableEq, Repr

/-- What a check of order 10 or above finds wrong: the place of the check in the order of R41 and Table 10.3, the cause, and the
address reported; the entries that the walk has read, and the size of the page in bits where it has found a leaf. -/
structure PageErr where
  order : Nat
  cause : Cause
  addr : Nat
  path : List Nat := []
  bits : Nat := 0
  deriving DecidableEq, Repr

/-- Bit `k` of a number. -/
def bitOf (v k : Nat) : Bool := v / 2 ^ k % 2 == 1

/-- Check 10 failed. -/
def pfault (va : Nat) : PageErr := { order := 10, cause := .pageFault, addr := va }
/-- Check 11 failed. -/
def pattr (addr : Nat) : PageErr := { order := 11, cause := .pageAttr, addr := addr }

/-- R432: a non-leaf entry's bits [7:2] and [63:48] are zero. -/
def nonLeafOk (e : Nat) : Bool := decide (e / 4 % 64 = 0) && decide (e / 2 ^ 48 = 0)

/-- The third level of a walk; `path` is what it has read so far. -/
def walk3 (s : State) (path : List Nat) (table va : Nat) : Except PageErr Leaf :=
  let a := table + 8 * (va / 2 ^ 16 % 32)
  let e := s.load a 8
  if bitOf e 0 = false then .error { pfault va with path := path ++ [a] }
  else if bitOf e 1 = false then .error { pattr va with path := path ++ [a] }
  else .ok { at_ := a, entry := e, bits := 16, path := path ++ [a] }

/-- The second level. -/
def walk2 (s : State) (path : List Nat) (table va : Nat) : Except PageErr Leaf :=
  let a := table + 8 * (va / 2 ^ 21 % 512)
  let e := s.load a 8
  if bitOf e 0 = false then .error { pfault va with path := path ++ [a] }
  else if bitOf e 1 then .ok { at_ := a, entry := e, bits := 21, path := path ++ [a] }
  else if nonLeafOk e = false then .error { pattr va with path := path ++ [a] }
  else walk3 s (path ++ [a]) (e % 2 ^ 48 / 2 ^ 8 * 2 ^ 8) va

/-- A walk of a partition's page table (R431). -/
def walk (s : State) (p : Partition) (va : Nat) : Except PageErr Leaf :=
  let root := p.desc.ptroot.toNat
  let n := p.desc.n1.val
  let idx := va / 2 ^ 30
  if 2 ^ 55 ≤ va ∨ 2 ^ n ≤ idx then .error (pfault va)
  else if root % (max (2 ^ n * 8) 4096) ≠ 0 then .error (pattr va)
  else
    let a := root + 8 * idx
    let e := s.load a 8
    if bitOf e 0 = false then .error { pfault va with path := [a] }
    else if bitOf e 1 then .ok { at_ := a, entry := e, bits := 30, path := [a] }
    else if nonLeafOk e = false ∨ e / 2 ^ 8 % 16 ≠ 0 then .error { pattr va with path := [a] }
    else walk2 s [a] (e % 2 ^ 48 / 2 ^ 8 * 2 ^ 8) va

/-- The physical address a leaf gives. -/
def Leaf.pa (l : Leaf) (va : Nat) : Nat := l.entry % 2 ^ 48 / 2 ^ l.bits * 2 ^ l.bits + va % 2 ^ l.bits

/-- A physical address lies on this card. -/
def State.onCard (s : State) (pa : Nat) : Bool := decide (pa / 2 ^ 47 = s.cardNo)

/-- The region of GDDR7 that holds an address: whether it is assigned to a partition, and whether it is ENC-capable (R429, R432). Of the
peer card it is what that card's map holds now (log 20). -/
def regionFor (s : State) (pid pa : Nat) : Bool × Bool :=
  if s.onCard pa then
    match s.regionOf pa with
    | some r => (decide (r.pid = pid), r.enc)
    | none => (false, false)
  else Config.peerRegion s.cycle (pa % 2 ^ 47 / 2 ^ 30)

/-- Check 10 on a leaf: the page lies where the partition may reach it, and a write meets no read-only page (R41, R432, R458). -/
def leafMapped (s : State) (pid : Nat) (p : Partition) (l : Leaf) (va : Nat) (u : Use) : Bool :=
  (s.onCard (l.pa va) || p.paired.isSome)
  && (match s.place (l.pa va) with
    | .gddr _ => (regionFor s pid (l.pa va)).1
    | .peer => (regionFor s pid (l.pa va)).1
    | .tagArea => (regionFor s pid (l.pa va)).1
    | .bank core _ => s.inCoreMap pid core
    | .peerWindow => false
    | .hole => true)
  && !(u.write && bitOf l.entry 12)

/-- The page lies in an ENC-capable region (R432). -/
def encCapable (s : State) (pid pa : Nat) : Bool :=
  match s.place pa with
  | .gddr _ => (regionFor s pid pa).2
  | .peer => (regionFor s pid pa).2
  | .tagArea => (regionFor s pid pa).2
  | _ => false

/-- Check 11 on a leaf (R406, R428, R432, R433). -/
def leafAttr (s : State) (pid : Nat) (l : Leaf) (va : Nat) (u : Use) : Option PageErr :=
  let e := l.entry
  let pa := l.pa va
  if bitOf e 11 || bitOf e 13 || bitOf e 14 || bitOf e 15 || decide (2 ^ 48 ≤ e) then some (pattr va)
  else if e % 2 ^ 48 / 2 ^ 16 % 2 ^ (l.bits - 16) ≠ 0 then some (pattr va)
  else if e / 4 % 4 = 3 then some (pattr va)
  else if bitOf e 7 && !(encCapable s pid pa) then some (pattr va)
  else if bitOf e 7 && u.write && !u.raw then some (pattr va)
  else if u.tagged && !(bitOf e 6) then some (pattr va)
  else match s.place pa with
    | .tagArea => some (pattr pa)
    | .hole => some (pattr pa)
    | _ => none

/-- Checks 10 and 11 of Table 1.7: the leaf and the physical address of a virtual address in a partition. -/
def translate (s : State) (pid : Option Nat) (va : Nat) (u : Use) : Except PageErr (Leaf × Nat) :=
  match pid with
  | none => .error (pfault va)
  | some n =>
    match walk s (s.part n) va with
    | .error e => .error e
    | .ok l =>
      if leafMapped s n (s.part n) l va u = false then .error { pfault va with path := l.path, bits := l.bits }
      else match leafAttr s n l va u with
        | some e => .error { e with path := l.path, bits := l.bits }
        | none => .ok (l, l.pa va)

/-- The walk that came to a failing check 10 or 11. -/
def PageErr.walk (e : PageErr) (pid : Option Nat) (va : Nat) : Option Walk :=
  match pid with
  | none => none
  | some n => if e.path = [] then none else
      some { entry := { pid := n, page := va / 2 ^ e.bits, bits := e.bits, lines := (e.path.map (· / 2 ^ 7)).eraseDups }, path := e.path }

/-- A failing check 10 or 11 as a trap. -/
def PageErr.trap (e : PageErr) (pid : Option Nat) (va reg : Nat) : TrapInfo :=
  { cause := e.cause, tval := BitVec.ofNat 64 e.addr, tcap := BitVec.ofNat 64 reg, walk := e.walk pid va }

/-! The object table (R435). -/

/-- The number of entries of a partition's object table. -/
def objCount (p : Partition) : Nat := 2 ^ min 20 (p.otbase.toNat / 2 ^ 59)

/-- The physical address of entry `i`. -/
def objAt (p : Partition) (i : Nat) : Nat := p.otbase.toNat % 2 ^ 48 / 32 * 32 + 32 * i

/-- Word `k` of entry `i`. -/
def objWord (s : State) (p : Partition) (i k : Nat) : Nat := s.load (objAt p i + 8 * k) 8

/-- STATE of an entry: 0 LIVE, 1 QUAR, 2 FREE. -/
def objState (s : State) (p : Partition) (i : Nat) : Nat := objWord s p i 2 / 2 ^ 8 % 4
/-- GEN of an entry. -/
def objGen (s : State) (p : Partition) (i : Nat) : Nat := objWord s p i 2 % 2 ^ 8

/-- The stale record of Table 1.9 when a capability fails check 3, none when it passes. A type key passes (R178). -/
def staleRecord (s : State) (p : Partition) (c : Cap) : Option Word :=
  if c.isTypeKey then none
  else if objCount p ≤ c.objid then some (BitVec.ofNat 64 (3 * 2 ^ 36 + c.gen * 2 ^ 20 + c.objid))
  else
    let st := objState s p c.objid
    let g := objGen s p c.objid
    if st = 0 ∧ g = c.gen then none
    else some (BitVec.ofNat 64 (st * 2 ^ 36 + g * 2 ^ 28 + c.gen * 2 ^ 20 + c.objid))

/-- Check 3 of Table 1.7. -/
def checkGen (s : State) (p : Partition) (c : Cap) (reg : Nat) : Except Stop Unit :=
  match staleRecord s p c with
  | none => .ok ()
  | some r => fault .capStale r reg

/-- Checks 1 and 2 of Table 1.7. -/
def checkTagSeal (c : Cap) (reg : Nat) : Except Stop Unit := do
  need c.tag .capTag 0 reg
  need (decide (c.otype = 0)) .capSeal (BitVec.ofNat 64 c.otype) reg

/-- Check 4: the missing permission bits are reported. -/
def checkPerm (c : Cap) (want : BitVec 14) (reg : Nat) : Except Stop Unit :=
  let missing := want &&& ~~~c.perms
  need (decide (missing = 0)) .capPerm (missing.setWidth 64) reg

/-- Every stride of dimension 1 and above satisfies the test. -/
def outerStrides (dims : List (Int × Int)) (f : Int → Bool) : Bool := dims.tail.all fun d => f d.2

/-- R139: what a sparse capability must meet. -/
def sparseOk (v : View) : Bool :=
  decide (v.sparse = 0) ||
    ((decide (v.fmt = 0x11) || decide (v.fmt = 0x10) || decide (v.fmt = 0x14) || decide (v.fmt = 0x15) || decide (v.fmt = 0x01))
      && decide ((v.dims.headD (0, 0)).2 = 1) && decide ((v.dims.headD (0, 0)).1 % 64 = 0)
      && outerStrides v.dims fun t => decide (t % 64 = 0))

/-- Check 5: no reserved bit or code, a sparse capability as R139 asks, and the shape that the access class accepts. -/
def checkFmt (c : Cap) (accepts : Bool) (reg : Nat) : Except Stop Unit :=
  need (c.codesOk && sparseOk c.view && accepts) .capFormat c.word1 reg

/-- Checks 1 to 5 of Table 1.7 on one capability. -/
def check15 (s : State) (c : Cap) (reg : Nat) (want : BitVec 14) (accepts : Bool) : Except Stop Unit := do
  checkTagSeal c reg
  checkGen s s.myPart c reg
  checkPerm c want reg
  checkFmt c accepts reg

/-! Visits of the Unpicker (R441, R442). -/

/-- A capability visited by the Unpicker: its tag goes when it fails check 3 (R441). -/
def visited (s : State) (p : Partition) (c : Cap) : Cap :=
  if c.tag && (staleRecord s p c).isSome then { c with tag := false } else c

/-- A granule visited. -/
def State.visitGranule (s : State) (p : Partition) (pa : Nat) : State :=
  if s.tagAt pa && (staleRecord s p (s.loadCap (pa / 64 * 64))).isSome then { s with tags := sset false s.tags (pa / 64) false }
  else s

/-- A granule that the partition reads a capability from is visited first while a sweep is active (R442). -/
def State.visitRead (s : State) (p : Partition) (pa : Nat) : State := if p.sweepActive then s.visitGranule p pa else s

end Sys2Proof.Machine
end

