-- ==== Sys2Proof/Machine/Caches.lean ====
section
/-! DEFINITION. Version counters and block MACs (R429, R449, R451), the L1 and L2 line directories with their retention counters (R254, R385 to
R391), and what walks leave in TLBs and object caches (R389, R434). -/

namespace Sys2Proof.Machine

/-! Counters and MACs. -/

/-- VSLOT of an entry. -/
def objVslot (s : State) (p : Partition) (i : Nat) : Nat := objWord s p i 2 / 2 ^ 16 % 2 ^ 16

/-- The counter of an object (R449): none when its VSLOT names no counter. -/
def versionSlot (s : State) (p : Partition) (i : Nat) : Option Nat :=
  let v := objVslot s p i
  if v < p.desc.vcount.toNat then some (p.desc.vbase.toNat + v) else none

/-- A version counter. -/
def State.version (s : State) (n : Nat) : BitVec 48 := sget 0 s.versions n

/-- The MAC of a block of 256 bytes as one number (R451): none when the object names no counter. -/
def macOf (s : State) (p : Partition) (block addr objid : Nat) : Option Word :=
  (versionSlot s p objid).map fun n =>
    Config.mac64 p.macKey (BitVec.ofNat 2048 block) (BitVec.ofNat 64 addr) (BitVec.ofNat 20 objid) (s.version n)

/-- The MAC of the block at a physical address, recorded for address `addr` and an object; none when the object names no counter. -/
def blockMac (s : State) (p : Partition) (pa addr objid : Nat) : Option Word := macOf s p (s.load pa 256) addr objid

/-- The place of a block's MAC (R429). -/
def macAt (pa : Nat) : Nat := pa / 2 ^ 30 * 2 ^ 30 + (2 ^ 30 - 2 ^ 21 - 2 ^ 25) + pa % 2 ^ 30 / 256 * 8

/-- The number in `n` bytes of GDDR7, without what has been written and not yet written back. -/
def State.loadUnder (s : State) (pa n : Nat) : Nat :=
  match n with
  | 0 => 0
  | k + 1 => ((sget none s.under pa).getD (s.byte pa)).toNat + 256 * s.loadUnder (pa + 1) k

/-- The block of 256 bytes at `b` verifies for an object (R451). -/
def State.verifies (s : State) (pid b objid : Nat) : Bool :=
  !(sget false (s.die (b / 2 ^ 46 % 2)).noMac (b % 2 ^ 46 / 256))
    && decide (macOf s (s.part pid) (s.loadUnder b 256) b objid = some (BitVec.ofNat 64 (s.load (macAt b) 8)))

/-- The slice and set of a line, as 2,048 × slice + set (R385). -/
def setOf (l : Nat) : Nat := (l % 32 ^^^ l / 2 ^ 16 % 32) * 2048 + l / 32 % 2048

/-- A partition's line as its home slice holds it. -/
def Die.lineOf (d : Die) (pid line : Nat) : Option L2Line :=
  (sget [] d.l2 (setOf line)).find? fun l => decide (l.line = line) && decide (l.pid = pid)

/-- What a request for a page with INTEG carries (R451): the OBJID, and whether it is a read that finds the whole line sound. -/
structure Integ where
  objid : Nat
  whole : Bool
  deriving DecidableEq, Repr

/-- The bytes of a line that a cache holds after a request which writes `bytes`. -/
def knownAfter (known bytes : BitVec 128) (integ : Option Integ) : BitVec 128 :=
  if integ.any (·.whole) then BitVec.allOnes 128 else known ||| bytes

/-- The bytes of a partition's line that need no GDDR7: those its home slice holds, and those of writes at the memory controller. -/
def Die.known (d : Die) (pid line : Nat) : BitVec 128 :=
  (d.writes.filter fun w => decide (w.pid = pid) && decide (w.line = line)).foldl (fun m w => m ||| w.bytes)
    (match d.lineOf pid line with
    | some l => l.known
    | none => 0)

/-- A read of `bytes` of a line of a page with INTEG finds them sound: they need no GDDR7, or their block verifies (R451). -/
def State.readSound (s : State) (pid pa objid : Nat) (bytes : BitVec 128) : Bool :=
  decide (bytes &&& ~~~((s.die (pa / 2 ^ 46 % 2)).known pid (lineOf pa)) = 0) || s.verifies pid (pa / 256 * 256) objid

/-- What a read of `bytes` of such a line carries; none where its block does not verify. -/
def State.readInteg (s : State) (pid pa objid : Nat) (bytes : BitVec 128) : Option Integ :=
  let k := (s.die (pa / 2 ^ 46 % 2)).known pid (lineOf pa)
  if s.readSound pid pa objid bytes then
    some { objid := objid, whole := decide (bytes &&& ~~~k ≠ 0) || decide (k = BitVec.allOnes 128) }
  else none

/-- Bytes of a line of a page with INTEG are about to be written: GDDR7 keeps what it holds of them until they are written back (R451). -/
def State.keepUnder (s : State) (pa : Nat) (bytes : BitVec 128) : State :=
  let b := pa / 128 * 128
  { s with under := (List.range 128).foldl (fun u k =>
      if bytes.getLsbD k && (sget none u (b + k)).isNone then sset none u (b + k) (some (s.byte (b + k))) else u) s.under }

/-! L1 and L2 directories. -/

/-- The lowest valid retention slot of a partition on a die whose range holds a virtual address (R390). -/
def slotFor (d : Die) (pid va : Nat) : Option Nat :=
  (List.range 8).find? fun k =>
    let r := sget Retention.reset d.ret (8 * pid + k)
    r.valid && decide (r.lo ≤ va) && decide (va < r.hi)

/-- A counter of a retention slot changed. -/
def Die.bump (d : Die) (pid k : Nat) (f : Retention → Retention) : Die :=
  { d with ret := sset Retention.reset d.ret (8 * pid + k) (f (sget Retention.reset d.ret (8 * pid + k))) }

/-- The way an allocation takes (R388): an invalid way of the mask, else that of the least recently used unprotected line. -/
def victimWay (mask : BitVec 16) (set : List L2Line) : Option Nat :=
  match (List.range 16).find? fun w => mask.getLsbD w && !(set.any fun l => decide (l.way = w)) with
  | some w => some w
  | none => (set.reverse.find? fun l => mask.getLsbD l.way && !l.prot).map (·.way)

/-- The dirty bytes of a line go to the memory controller, which has work to do where the page has INTEG (R451). -/
def Die.writesBack (d : Die) (l : L2Line) : Die :=
  match l.integ with
  | some o => if l.dirty = 0 then d else { d with writes := d.writes ++ [{ pid := l.pid, line := l.line, bytes := l.dirty, objid := o }] }
  | none => d

/-- A request for a line at its home slice (R388, R391): counters, hit, allocation, replacement. `bytes` are those that it writes, `integ` what
it carries for a page with INTEG. What allocates nothing goes through to GDDR7 (R387). -/
def Die.request (d : Die) (pid : Nat) (mask : BitVec 16) (va : Option Nat) (line : Nat) (bytes : BitVec 128) (evictFirst : Bool)
    (integ : Option Integ) : Die :=
  let key := setOf line
  let set := sget [] d.l2 key
  let slot := va.bind (slotFor d pid)
  match set.find? fun l => decide (l.line = line) && decide (l.pid = pid) with
  | some l =>
    let d := match slot with
      | some k => d.bump pid k fun r => { r with hit := r.hit + 1 }
      | none => d
    { d with l2 := sset [] d.l2 key ({ l with dirty := l.dirty ||| bytes, integ := integ.map (·.objid) <|> l.integ,
                                              known := knownAfter l.known bytes integ } :: set.erase l) }
  | none =>
    let d := match slot with
      | some k => d.bump pid k fun r => { r with miss := r.miss + 1 }
      | none => d
    let new : L2Line := { way := 0, line := line, pid := pid, dirty := bytes, integ := integ.map (·.objid), known := knownAfter 0 bytes integ,
                          ef := evictFirst, slot := none, prot := false }
    match victimWay mask set with
    | none => d.writesBack new
    | some w =>
      let new : L2Line := { new with way := w }
      let d := (set.filter fun l => decide (l.way = w)).foldl Die.writesBack d
      let rest := set.filter fun l => decide (l.way ≠ w)
      match slot with
      | some k =>
        let held := (set.filter fun l => l.prot && decide (l.slot = some k) && decide (l.pid = pid)).length
        if held < (sget Retention.reset d.ret (8 * pid + k)).res then
          let new : L2Line := { new with slot := some k, prot := true }
          { d with l2 := sset [] d.l2 key (new :: rest) }
        else
          let new : L2Line := { new with slot := some k }
          let d := d.bump pid k fun r => { r with ovf := r.ovf + 1 }
          { d with l2 := sset [] d.l2 key (if evictFirst then rest ++ [new] else new :: rest) }
      | none =>
        { d with l2 := sset [] d.l2 key (if evictFirst then rest ++ [new] else new :: rest) }

/-- A request of a partition for the line of a physical address: at its home slice, or, where the address is the peer card's, a packet that asks
for what it reads (R460); what it writes there goes out with its data. -/
def State.l2Request (s : State) (pid : Nat) (va : Option Nat) (pa : Nat) (bytes : BitVec 128) (evictFirst : Bool) (integ : Option Integ) :
    State :=
  match s.place pa with
  | .gddr n =>
    let s := if integ.isSome then s.keepUnder pa bytes else s
    s.setDie n ((s.die n).request pid (s.part pid).wmask va (lineOf pa) bytes evictFirst integ)
  | .peer => if bytes = 0 then { s with outbox := s.outbox ++ [.peerRead pa] } else s
  | _ => s

/-- The bytes `[pa, pa + n)` as a mask of their line. -/
def byteMask (pa n : Nat) : BitVec 128 := BitVec.ofNat 128 ((2 ^ n - 1) * 2 ^ (pa % 128))

/-! Walks, TLBs and object caches (R389, R433, R434). -/

/-- Whose TLBs translate: those of a core and its cluster, those of a cluster alone, or none. -/
inductive Via
  | core (n : Nat)
  | cluster (n : Nat)
  | walker
  deriving DecidableEq, Repr

/-- An entry becomes the most recently used of at most `n`. -/
def useEntry {α : Type} [DecidableEq α] (n : Nat) (e : α) (l : List α) : List α := (e :: l.erase e).take n

/-- The entries of a table that a walk or an object-table read has read go through the home slices, and their lines carry the walk mark (R389,
R434). -/
def State.walkReads (s : State) (pid : Nat) (path : List Nat) : State :=
  path.foldl (fun s pa =>
    let s := s.l2Request pid none pa 0 false none
    match s.place pa with
    | .gddr d => s.setDie d { s.die d with marks := sset false (s.die d).marks (lineOf pa) true }
    | _ => s) s

/-- An object's entry read through a core's object cache of 128 entries (R44): a miss reads the object table. The least recently used entry is
replaced (log 54). -/
def State.useObject (s : State) (core pid objid : Nat) : State :=
  let p := s.part pid
  if objCount p ≤ objid then s
  else
    let e : ObjEntry := { pid := pid, objid := objid, line := objAt p objid / 2 ^ 7 }
    let s := if (s.core core).objc.contains e then s else s.walkReads pid [objAt p objid]
    s.setCore core { s.core core with objc := useEntry 128 e (s.core core).objc }

/-- What a TLB keeps of a leaf. -/
def Leaf.entryOf (l : Leaf) (pid va : Nat) : TlbEntry :=
  { pid := pid, page := va / 2 ^ l.bits, bits := l.bits, lines := (l.path.map (· / 2 ^ 7)).eraseDups }

/-- The TLBs hold a leaf. -/
def State.tlbHas (s : State) (v : Via) (e : TlbEntry) : Bool :=
  match v with
  | .core n => (s.core n).tlb.contains e || (s.cluster (n / 8)).tlb.contains e
  | .cluster n => (s.cluster n).tlb.contains e
  | .walker => false

/-- A leaf is placed in the TLBs, or used there: 256 entries to a core, 4,096 to a cluster (R389), the least recently used replaced (log 54).
The one used last before changes nothing. -/
def State.tlbUse (s : State) (v : Via) (e : TlbEntry) : State :=
  match v with
  | .core n =>
    if (s.core n).tlb.head? = some e then s
    else
      let s1 := s.setCore n { s.core n with tlb := useEntry 256 e (s.core n).tlb }
      if (s.core n).tlb.contains e then s1
      else s1.setCluster (n / 8) { s.cluster (n / 8) with tlb := useEntry 4096 e (s.cluster (n / 8)).tlb }
  | .cluster n => if (s.cluster n).tlb.head? = some e then s else s.setCluster n { s.cluster n with tlb := useEntry 4096 e (s.cluster n).tlb }
  | .walker => s

/-- A translation through a leaf: a miss of the TLBs walks the table through the home slices (R389). Accessed is set at the first translation
of a leaf, Dirty at the first write through it (R433): bits 10 and 9 of the entry, an atomic OR in its second byte. -/
def State.touchLeaf (s : State) (v : Via) (pid va : Nat) (l : Leaf) (write : Bool) : State :=
  let e := l.entryOf pid va
  let s := if s.tlbHas v e then s else s.walkReads pid l.path
  (s.orByte (l.at_ + 1) (if write then 0x06 else 0x04)).tlbUse v e

/-- The entries that a walk which came to a fault has read go through the home slices, unless the TLBs hold its leaf (R389). -/
def State.walkedTo (s : State) (v : Via) (w : Option Walk) : State :=
  match w with
  | none => s
  | some w => if s.tlbHas v w.entry then s else s.walkReads w.entry.pid w.path

/-- An address that a unit looks up and that does not translate: the walk that came to the fault. -/
def State.walkFor (s : State) (v : Via) (pid : Option Nat) (va : Nat) (use : Use) : State :=
  match translate s pid va use with
  | .ok _ => s
  | .error e => s.walkedTo v (e.walk pid va)

/-- Sets of the L1 (R254): its size divided by 1 KiB. -/
def l1Sets (nb : BitVec 2) : Nat := match nb.toNat with | 0 => 128 | 1 => 256 | _ => 512

/-- The dirty bytes of L1 lines, and only they, go to their home slices (R254, R255). -/
def State.writeBack (s : State) (pid : Nat) (ls : List L1Line) : State :=
  (ls.filter fun l => decide (l.dirty ≠ 0)).foldl (fun s l =>
    s.l2Request pid (some l.va) (l.line * 2 ^ 7) l.dirty l.ef (l.integ.map fun o => { objid := o, whole := false })) s

/-- The granules of a line that hold bytes of a mask. -/
def granulesOf (bytes : BitVec 128) : BitVec 2 :=
  BitVec.ofNat 2 ((decide (bytes.setWidth 64 ≠ 0)).toNat + 2 * (decide (bytes.toNat / 2 ^ 64 ≠ 0)).toNat)

/-- An L1 line after a strand's access that writes bytes of it, the granules taking the tag of a capability store (R29). -/
def L1Line.wrote (l : L1Line) (bytes : BitVec 128) (tag : Bool) (integ : Option Integ) : L1Line :=
  let g := granulesOf bytes
  { l with dirty := l.dirty ||| bytes, tags := (l.tags &&& ~~~g) ||| (if tag then g else 0), integ := integ.map (·.objid) <|> l.integ,
           known := knownAfter l.known bytes integ }

/-- The tag bits of a line as memory holds them. -/
def State.lineTags (s : State) (pa : Nat) : BitVec 2 :=
  BitVec.ofNat 2 ((sget false s.tags (pa / 128 * 2)).toNat + 2 * (sget false s.tags (pa / 128 * 2 + 1)).toNat)

/-- A strand's access to a translated line: served by the L1 on a cacheable page, else a request to the home slice (R254, R391).
The L1 keeps 8 lines to a set, in order of use; it allocates nothing for the peer card's memory (log 89). `bytes` are those that it writes, `tag`
that of a capability store, `integ` what it carries for a page with INTEG. -/
def State.lineAccess (s : State) (core pid : Nat) (va pa entry : Nat) (bytes : BitVec 128) (tag : Bool) (integ : Option Integ) : State :=
  match s.place pa with
  | .gddr _ =>
    let line := pa / 2 ^ 7
    if bitOf entry 4 && decide (entry / 4 % 4 ≠ 1) then
      let s := if integ.isSome then s.keepUnder pa bytes else s
      let c := s.core core
      match c.l1.find? fun l => decide (l.line = line) with
      | some l => s.setCore core { c with l1 := l.wrote bytes tag integ :: c.l1.erase l }
      | none =>
        let sets := l1Sets c.nb
        let old := (c.l1.filter fun l => decide (l.line % sets = line % sets)).drop 7
        let new : L1Line := { line := line, va := va, ef := bitOf entry 5, integ := none, dirty := 0, tags := s.lineTags pa, known := 0 }
        ((s.setCore core { c with l1 := new.wrote bytes tag integ :: c.l1.filter fun l => !(old.contains l) }).writeBack pid old).l2Request
          pid (some va) pa 0 (bitOf entry 5) integ
    else s.l2Request pid (some va) pa bytes (bitOf entry 5) integ
  | _ => s.l2Request pid (some va) pa bytes (bitOf entry 5) integ

/-- A release at CLUSTER or wider writes back the L1's dirty bytes (R255). -/
def State.l1Release (s : State) (core pid : Nat) : State :=
  let c := s.core core
  (s.setCore core { c with l1 := c.l1.map fun l => { l with dirty := 0 } }).writeBack pid c.l1

/-! Writes to GDDR7 (R451). -/

/-- The pairs of keys and values of a mask's bytes of a line, forgotten in a table by physical address. -/
def dropUnder (u : Sparse (Option Byte)) (pa : Nat) (bytes : BitVec 128) : Sparse (Option Byte) :=
  skeep (fun k => !(decide (pa ≤ k) && decide (k < pa + 128) && bytes.getLsbD (k - pa))) u

/-- The memory controller writes a line's bytes and, with them, what waits or is dirty of the other line of its block. A block not wholly
written is verified first; where that fails, its MAC can never verify from then on (R451, log 84). -/
def State.writeGddr (s : State) (die : Nat) (w : GddrWrite) : State :=
  let d := s.die die
  let other := w.line ^^^ 1
  let waits : BitVec 128 := (d.writes.filter fun v => decide (v.pid = w.pid) && decide (v.line = other)).foldl (fun m v => m ||| v.bytes) 0
  let dirty : BitVec 128 := match d.lineOf w.pid other with
    | some l => l.dirty
    | none => 0
  let pa := s.cardNo * 2 ^ 47 + die * 2 ^ 46 + w.line * 128
  let pb := s.cardNo * 2 ^ 47 + die * 2 ^ 46 + other * 128
  let b := pa / 256 * 256
  let whole := decide (w.bytes = BitVec.allOnes 128) && decide (waits ||| dirty = BitVec.allOnes 128)
  let sound := whole || s.verifies w.pid b w.objid
  let set := sget [] d.l2 (setOf other)
  let d := { d with
    writes := d.writes.filter fun v => !(decide (v.pid = w.pid) && decide (v.line = other))
    l2 := sset [] d.l2 (setOf other) (set.map fun l => if l.line = other ∧ l.pid = w.pid then { l with dirty := 0 } else l) }
  let s : State := { s.setDie die d with under := dropUnder (dropUnder s.under pa w.bytes) pb (waits ||| dirty) }
  let mac := macOf s (s.part w.pid) (s.loadUnder b 256) b w.objid
  let s := s.setDie die { s.die die with noMac := sset false (s.die die).noMac (b % 2 ^ 46 / 256) (!(sound && mac.isSome)) }
  match mac with
  | some m => s.store (macAt b) 8 m.toNat
  | none => s

/-- The oldest write of a die's memory controllers. -/
def writeTick (die : Nat) (s : State) : State :=
  let d := s.die die
  match d.writes with
  | w :: rest => (s.setDie die { d with writes := rest }).writeGddr die w
  | [] => s

/-- Every write that waits at a die's memory controllers, as many as there were at first. -/
def writesTick (die : Nat) (s : State) : State := (s.die die).writes.foldl (fun s _ => writeTick die s) s

/-- An acquire at CLUSTER or wider invalidates the L1's clean lines (R255). -/
def State.l1Acquire (s : State) (core : Nat) : State :=
  let c := s.core core
  s.setCore core { c with l1 := c.l1.filter fun l => decide (l.dirty ≠ 0) }

end Sys2Proof.Machine
end

