-- ==== Sys2Proof/Machine/Access.lean ====
section
/-! DEFINITION. From a capability and an index vector to memory: bounds, addresses, alignment, translation and the bank checks, in
the order of Table 1.7 and Table 10.3 (R38 to R43, R252, R257); spans (R177). -/

namespace Sys2Proof.Machine

/-- A failing element: the place of its first failing check in the order of R41 and Table 10.3, and what happens. -/
structure Fail where
  order : Nat
  stop : Stop
  deriving DecidableEq, Repr

/-- The trap of a failure, where nothing parks: at an engine or a unit. -/
def Fail.info (f : Fail) : TrapInfo :=
  match f.stop with
  | .trap t => t
  | _ => { cause := .pageAttr, tval := 0, tcap := 0 }

/-- A failing check that traps. -/
def failTrap {α : Type} (order : Nat) (c : Cause) (v : Word) (reg : Nat) : Except Fail α :=
  .error { order := order, stop := .trap { cause := c, tval := v, tcap := BitVec.ofNat 64 reg } }

/-- A bound record (Table 1.9): the index clamped to a signed 32-bit value (R43). -/
def boundRecord (dim : Nat) (i : Int) : Word :=
  BitVec.ofNat 64 (dim * 2 ^ 60 + lowBits 32 (max (-2 ^ 31) (min (2 ^ 31 - 1) i)))

/-- The first dimension below the rank whose index is out of bounds (R38): missing indices count as zero. -/
def firstOut (dims : List (Int × Int)) (idx : List Int) (k : Nat) : Option (Nat × Int) :=
  match dims with
  | [] => none
  | (e, _) :: rest =>
    let i := idx.headD 0
    if 0 ≤ i ∧ i < e then firstOut rest idx.tail (k + 1) else some (k, i)

/-- Check 6 of Table 1.7 in element mode. -/
def boundElem (c : Cap) (idx : List Int) (reg : Nat) : Except Fail Unit :=
  match firstOut c.view.dims idx 0 with
  | none => .ok ()
  | some (k, i) => failTrap 6 .capBound (boundRecord k i) reg

/-- ElemAddr of R38: a byte address, or a nibble address for I4X. -/
def elemAddr (c : Cap) (idx : List Int) : Int :=
  let s := dotDims c.view.dims idx
  if c.fmt = fmtI4X then 2 * (c.base : Int) + s else (c.base : Int) + (esize c.fmt : Int) * s

/-- How an element access stands to alignment, translation and banks. -/
structure Acc where
  use : Use
  align : Nat
  /-- A byte-mode access, which bank formats do not bind (Table 10.3). -/
  byteMode : Bool
  /-- The strand that makes it, none for an engine, which no lock excludes (R264). -/
  strand : Option Nat
  /-- A read by MWLOAD.E or an engine write under R259. -/
  sealedOk : Bool
  deriving DecidableEq, Repr

/-- The first bank that belongs to the L1 (Table 10.1). -/
def l1First (nb : BitVec 2) : Nat := match nb.toNat with | 0 => 14 | 1 => 12 | _ => 8

/-- The lock of a bank. -/
def Core.lockOf (c : Core) (b : Nat) : Option Lock := sget none c.locks b
/-- The bank a strand has locked. -/
def Core.lockedBy (k : Core) (n : Nat) : Option Nat :=
  (k.locks.find? fun e => match e.2 with
    | some l => decide (l.holder = n)
    | none => false).map (·.1)
/-- BFMT of a bank. -/
def Core.bfmtOf (c : Core) (b : Nat) : Byte := sget 0 c.bfmt b

/-- A bank is locked by a strand other than the one given (R264). -/
def lockedAgainst (k : Core) (b : Nat) (strand : Option Nat) : Bool :=
  match strand, k.lockOf b with
  | some n, some l => decide (l.holder ≠ n)
  | _, _ => false

/-- The bank checks of Table 10.3; all stand with check 11 in the order of R42. -/
def bankCheck (s : State) (c : Cap) (reg : Nat) (a : Acc) (va core b : Nat) : Except Fail Unit :=
  let k := s.core core
  let f := (k.bfmtOf b).toNat
  if l1First k.nb ≤ b then failTrap 11 .pageAttr (BitVec.ofNat 64 va) reg
  else if bitOf f 6 && !a.sealedOk then failTrap 11 .sealedBank (BitVec.ofNat 64 va) reg
  else if f % 64 ≠ 0 ∧ a.byteMode = false ∧ c.fmt ≠ f % 64 then failTrap 11 .capFormat c.word1 reg
  else if lockedAgainst k b a.strand then .error { order := 11, stop := .park .retry }
  else .ok ()

/-- A placed element: its virtual and physical address, the leaf that maps it, and what its requests carry where the page has INTEG
(R451). -/
structure Elem where
  va : Nat
  pa : Nat
  leaf : Leaf
  integ : Option Integ
  deriving DecidableEq, Repr

/-- Checks 9 to 11 on an address that CapCheck returned; an address outside 55 bits is not mapped. -/
def mapped (s : State) (pid : Option Nat) (reg : Nat) (use : Use) (align : Nat) (addr : Int) : Except Fail Elem :=
  let w : Word := BitVec.ofInt 64 addr
  if addr % (align : Int) ≠ 0 then failTrap 9 .align w reg
  else if addr < 0 then failTrap 10 .pageFault w reg
  else match translate s pid addr.toNat use with
    | .error e => .error { order := e.order, stop := .trap (e.trap pid addr.toNat reg) }
    | .ok (l, pa) => .ok { va := addr.toNat, pa := pa, leaf := l, integ := none }

/-- The page of a leaf is under MACs: it has INTEG, and not ENC, whose blocks are verified only at the stationary load port (R451). -/
def Leaf.integ (l : Leaf) : Bool := bitOf l.entry 8 && !(bitOf l.entry 7)

/-- What an L1 gives for a read of `bytes` of a line: nothing where it does not hold them all. -/
def Core.l1Integ (k : Core) (pa objid : Nat) (bytes : BitVec 128) : Option Integ :=
  match k.l1.find? fun l => decide (l.line = pa / 2 ^ 7) with
  | some l => if bytes &&& ~~~l.known = 0 then some { objid := objid, whole := decide (l.known = BitVec.allOnes 128) } else none
  | none => none

/-- What an access of a page with INTEG carries (R451): a write no more than the OBJID; a read, which an atomic makes at the home, what a cache or
a sound block gives, and none where the block does not verify. -/
def State.integFor (s : State) (strand : Option Nat) (use : Use) (align pa objid : Nat) : Option Integ :=
  if use.write && !use.rmw then some { objid := objid, whole := false }
  else
    (if use.rmw then none else strand.bind fun n => (s.core (coreOf n)).l1Integ pa objid (byteMask pa align))
      <|> s.readInteg (((s.regionOf pa).map (·.pid)).getD 0) pa objid (byteMask pa align)

/-- A read of a page with INTEG that has to go to GDDR7 verifies its block: INTEGRITY, with the block's address (R451, log 84). What the
strand's L1 holds is not read again. -/
def verified (s : State) (c : Cap) (reg : Nat) (a : Acc) (e : Elem) : Except Fail Elem :=
  match s.integFor a.strand a.use a.align e.pa c.objid with
  | some i => .ok { e with integ := some i }
  | none => failTrap 12 .integrity (BitVec.ofNat 64 (e.pa / 256 * 256)) reg

/-- A retrain of the Seam holds every request to the peer card (R459); a strand that makes one is Running but not ready (R461). -/
def State.seamHolds (s : State) (pid : Option Nat) : Bool :=
  decide (s.seam = .retraining) && match pid with
    | some p => (s.part p).paired.isSome
    | none => false

/-- The bank checks on a mapped element where it lies in a bank, and the verification of its block where it lies in GDDR7. -/
def banked (s : State) (c : Cap) (reg : Nat) (a : Acc) (e : Elem) : Except Fail Elem :=
  match s.place e.pa with
  | .bank core b =>
    match bankCheck s c reg a e.va core b with
    | .error f => .error f
    | .ok _ => .ok e
  | .gddr _ => if e.leaf.integ then verified s c reg a e else .ok e
  | .peer => if s.seam = .retraining ∧ a.strand.isSome = true then .error { order := 12, stop := .hold } else .ok e
  | _ => .ok e

/-- Checks 9 to 11 and bank checks, giving the placed element. -/
def placed (s : State) (pid : Option Nat) (c : Cap) (reg : Nat) (a : Acc) (addr : Int) : Except Fail Elem :=
  match mapped s pid reg a.use a.align addr with
  | .ok e => banked s c reg a e
  | .error f => .error f

/-- Checks 6 and 9 to 11 and the bank checks on one element. -/
def placeElem (s : State) (pid : Option Nat) (c : Cap) (reg : Nat) (a : Acc) (idx : List Int) : Except Fail Elem :=
  match boundElem c idx reg with
  | .error e => .error e
  | .ok _ => placed s pid c reg a (elemAddr c idx)

/-- A bank of a core, any where none is named, holds a physical address. -/
def inBank (s : State) (own : Option Nat) (pa : Nat) : Bool :=
  match s.place pa with
  | .bank core _ => decide (own.getD core = core)
  | _ => false

/-- The same on an element that has to lie in a scratchpad bank, of core `own` where one is named: that is a part of check 11 and comes
before the bank checks (R201, R269, R303). -/
def bankElem (s : State) (pid : Option Nat) (c : Cap) (reg : Nat) (a : Acc) (own : Option Nat) (idx : List Int) : Except Fail Elem :=
  match boundElem c idx reg with
  | .error e => .error e
  | .ok _ =>
    match mapped s pid reg a.use a.align (elemAddr c idx) with
    | .error f => .error f
    | .ok e => if inBank s own e.pa then banked s c reg a e else failTrap 11 .pageAttr (BitVec.ofNat 64 e.va) reg

/-- Among failing elements, the one of lowest order, and of lowest lane within it (R42). -/
def worst (fs : List Fail) : Option Fail :=
  fs.foldl (fun best f =>
    match best with
    | none => some f
    | some b => if f.order < b.order then some f else some b) none

/-- The failures among element results. -/
def fails {α : Type} (rs : List (Except Fail α)) : List Fail :=
  rs.filterMap fun r => match r with
    | .error f => some f
    | .ok _ => none

/-- The successes among element results. -/
def oks {α : Type} (rs : List (Except Fail α)) : List α :=
  rs.filterMap fun r => match r with
    | .ok a => some a
    | .error _ => none

/-- Every element passed, or the failure that the instruction reports (R42). -/
def gather {α : Type} (rs : List (Except Fail α)) : Except Stop (List α) :=
  match worst (fails rs) with
  | some f => .error f.stop
  | none => .ok (oks rs)

/-- One element passed, or its stop. -/
def one {α : Type} (r : Except Fail α) : Except Stop α :=
  match r with
  | .ok a => .ok a
  | .error f => .error f.stop

/-- An element's translation by a strand: its TLBs, and its leaf's Accessed and Dirty bits. -/
def State.touchPage (s : State) (e : Elem) (write : Bool) : State :=
  s.touchLeaf (.core (coreOf s.cur)) ((s.pidOf s.cur).getD 0) e.va e.leaf write

/-- A write through the page of an address by a strand whose access has been placed before: its Dirty bit (R433). -/
def State.markWrite (s : State) (n va : Nat) : State :=
  match translate s (s.pidOf n) va useWrite with
  | .ok (l, _) => s.touchLeaf (.core (coreOf n)) ((s.pidOf n).getD 0) va l true
  | .error _ => s

/-- A strand's access of an element of `n` bytes: its leaf's Accessed and Dirty bits and the line directories. -/
def State.touch (s : State) (e : Elem) (n : Nat) (write : Bool) : State :=
  (s.touchPage e write).lineAccess (coreOf s.cur) ((s.pidOf s.cur).getD 0) e.va e.pa e.leaf.entry (if write then byteMask e.pa n else 0) false
    e.integ

/-- Two elements lie in one line of one page: a vector access makes one request for both (R427). -/
def Elem.sameLine (a b : Elem) : Bool := decide (a.pa / 128 = b.pa / 128) && decide (a.leaf = b.leaf)

/-- The elements of a list that are the first of their line. -/
def lineHeads (es : List Elem) : List Elem :=
  es.foldl (fun hs e => if hs.any e.sameLine then hs else hs ++ [e]) []

/-- The bytes of a line that a list of elements of `n` bytes covers. -/
def lineBytes (es : List Elem) (h : Elem) (n : Nat) : BitVec 128 :=
  (es.filter h.sameLine).foldl (fun m e => m ||| byteMask e.pa n) 0

/-- Every element of a vector access touched: each page once for each element, each line once (R427). -/
def State.touchAll (s : State) (es : List Elem) (n : Nat) (write : Bool) : State :=
  let s := es.foldl (fun s e => s.touchPage e write) s
  (lineHeads es).foldl (fun s h =>
    s.lineAccess (coreOf s.cur) ((s.pidOf s.cur).getD 0) h.va h.pa h.leaf.entry (if write then lineBytes es h n else 0) false
      h.integ) s

/-- The page of an element, by its first address. -/
def Elem.page (e : Elem) : Nat := e.va / 2 ^ e.leaf.bits * 2 ^ e.leaf.bits

/-- An element at its place among those of a vector access: parts by page in ascending address, lanes in order within a part (R192, R418). -/
def insertPart (x : Nat × Elem) (es : List (Nat × Elem)) : List (Nat × Elem) :=
  match es with
  | [] => [x]
  | y :: rest => if x.2.page < y.2.page then x :: y :: rest else y :: insertPart x rest

/-- The elements of a vector access in the order in which it performs them (R418). -/
def inParts (es : List (Nat × Elem)) : List (Nat × Elem) := es.foldl (fun l x => insertPart x l) []

/-- A leaf entry marks its page as SO (R406). -/
def soPage (entry : Nat) : Bool := decide (entry / 4 % 4 = 1)

/-- A strand's next issue waits for the acknowledgement of a packet that its access to an SO page has posted (R414). -/
def State.holdSo (s : State) (n : Nat) (b : Bool) : State :=
  if b then s.setStrand n { s.strand n with soPeer := true } else s

/-- A posted write of strand `n` to the peer card awaits its acknowledgement (R461). -/
def State.postPeer (s : State) (n : Nat) (so : Bool) : State :=
  ({ s with unacked := sset 0 s.unacked n (sget 0 s.unacked n + 1) } : State).holdSo n so

/-- A strand's write of an address, made by `write` at its home: a posted packet where that is the peer card. On an SO page the strand's next
issue waits for the packets that go to the peer card, an invalidation of a walk-marked line among them (R414, R434). -/
def State.postsFor (s : State) (n pa : Nat) (so : Bool) (write : State → State) : State :=
  if s.isPeer pa then (write s).postPeer n so else (write s).holdSo n (so && s.tells pa)

/-- The bytes of one element, stored by a strand at its home. -/
def State.putElem (s : State) (e : Elem) (n v : Nat) : State :=
  s.postsFor s.cur e.pa (soPage e.leaf.entry) fun s => s.store e.pa n v

/-- A strand's store of one element. -/
def State.storeElem (s : State) (e : Elem) (n v : Nat) : State := (s.touch e n true).putElem e n v

/-- A strand's store of a capability (R187). -/
def State.storeCapElem (s : State) (e : Elem) (v : Cap) : State :=
  let s := (s.touchPage e true).lineAccess (coreOf s.cur) ((s.pidOf s.cur).getD 0) e.va e.pa e.leaf.entry (byteMask e.pa 64) v.tag e.integ
  s.postsFor s.cur e.pa (soPage e.leaf.entry) fun s => s.storeCap e.pa v

/-! Stores to several elements (R418). -/

/-- Where an element lies. -/
def Elem.at_ (e : Elem) : ElemAt := { va := e.va, pa := e.pa, page := e.page, so := soPage e.leaf.entry }

/-- The element of a store that strand `n` now performs, on its page as the store finds it. -/
def PartWrite.elem (w : PartWrite) (s : State) (n : Nat) : Option Elem :=
  match translate s (s.pidOf n) w.at_.va useWrite with
  | .ok (l, _) =>
    some { va := w.at_.va, pa := w.at_.pa, leaf := l, integ := if l.integ then some { objid := w.objid, whole := false } else none }
  | .error _ => none

/-- The pages and lines that a strand's stores write, as they are performed. -/
def State.touchFor (s : State) (n : Nat) (es : List Elem) (size : Nat) : State :=
  { ({ s with cur := n } : State).touchAll es size true with cur := s.cur }

/-- The stores of one part, in order. -/
def State.writePart (s : State) (n : Nat) (ws : List PartWrite) : State :=
  let size := (ws.head?.map (·.size)).getD 1
  ws.foldl (fun s w => s.postsFor n w.at_.pa w.at_.so fun s => s.store w.at_.pa w.size w.value)
    (s.touchFor n (ws.filterMap fun w => w.elem s n) size)

/-- The parts of a store in ascending address; those after one that is not yet performed at FABRIC wait for it (R414, R418). -/
def State.writeParts (s : State) (n : Nat) (ps : List (List PartWrite)) : State :=
  match ps with
  | [] => s.setStrand n { s.strand n with parts := [] }
  | p :: rest =>
    let s := s.writePart n p
    if (s.strand n).soPeer then s.setStrand n { s.strand n with parts := rest } else s.writeParts n rest

/-- A store put to the part of its page. -/
def toPart (w : PartWrite) (ps : List (List PartWrite)) : List (List PartWrite) :=
  match ps with
  | [] => [[w]]
  | p :: rest => if (p.head?.map (·.at_.page)) = some w.at_.page then (w :: p) :: rest else [w] :: p :: rest

/-- Stores in the order of their pages, as parts. -/
def partsOf (ws : List PartWrite) : List (List PartWrite) := ws.foldr toPart []

/-- Every packet to the peer card that a strand's access to an SO page waits for is acknowledged. -/
def State.peerDone (s : State) (n : Nat) : Bool :=
  decide (sget 0 s.unacked n = 0) && decide (sget 0 s.unacked (4096 + (s.pidOf n).getD 0) = 0)

/-- With the last acknowledgement the strand's SO access is performed: the next part follows, or the strand's next issue is free (R414). -/
def State.soNext (s : State) (n : Nat) : State :=
  if (s.strand n).soPeer && s.peerDone n then (s.setStrand n { s.strand n with soPeer := false }).writeParts n (s.strand n).parts else s

/-- Every part that waits, performed. -/
def State.finishParts (s : State) (n : Nat) : State :=
  let s := (s.strand n).parts.foldl (fun s p => s.writePart n p) s
  s.setStrand n { s.strand n with soPeer := false, parts := [] }

/-! Byte mode (R40). -/

/-- Check 5 of a byte-mode access: rank 1, stride0 = 1, class D, a format other than I4X. -/
def byteRun (c : Cap) : Bool :=
  decide (c.rank = 1) && decide (c.stride 0 = 1) && decide (c.sparse = 0) && decide (c.fmt ≠ fmtI4X)

/-- Check 6 of a byte-mode access of `n` bytes at offset `o`. -/
def boundBytes (c : Cap) (o : Int) (n : Nat) (reg : Nat) : Except Fail Unit :=
  if 0 ≤ o ∧ o + n ≤ (c.extent 0 * esize c.fmt : Nat) then .ok () else failTrap 6 .capBound (boundRecord 15 o) reg

/-- What LDE, STE and the vector accesses accept at check 5 (Table 6.6). -/
def scalarShape (c : Cap) : Bool := decide (c.sparse = 0) && fmtScalar c.fmt

/-! Spans (R177). -/

/-- The lowest and highest logical element offset over the dimensions; none when some extent is zero. -/
def offsets (dims : List (Int × Int)) : Option (Int × Int) :=
  match dims with
  | [] => some (0, 0)
  | (e, t) :: rest =>
    match offsets rest with
    | none => none
    | some (lo, hi) =>
      if e ≤ 0 then none
      else some (lo + min 0 ((e - 1) * t), hi + max 0 ((e - 1) * t))

/-- The group size of a sparse class (Table 4.11). -/
def groupSize (fmt sp : Nat) : Nat := 8 + sparseKept sp * esize fmt

/-- The smallest byte range [lo, hi) that holds every byte of every in-bound element; none when there is no element. -/
def span (c : Cap) : Option (Int × Int) :=
  (offsets c.view.dims).map fun r =>
    let b : Int := c.base
    if c.sparse ≠ 0 then
      let g : Int := groupSize c.fmt c.sparse
      (b + r.1 / 64 * g, b + r.2 / 64 * g + g)
    else if c.fmt = fmtI4X then (b + r.1 / 2, b + r.2 / 2 + 1)
    else (b + (esize c.fmt : Int) * r.1, b + (esize c.fmt : Int) * (r.2 + 1))

/-- Shaped of R172. -/
def shaped (v : View) : Bool :=
  decide (1 ≤ v.dims.length) && decide (v.dims.length ≤ 8)
    && v.dims.all (fun d => decide (0 ≤ d.1) && decide (d.1 < 2 ^ 20) && decide (-2 ^ 27 ≤ d.2) && decide (d.2 < 2 ^ 27))
    && (decide (v.fmt ≠ fmtI4X) || decide ((v.dims.headD (0, 0)).2 = 1))
    && sparseOk v

end Sys2Proof.Machine
end

