-- ==== Sys2Proof/Machine/Traps.lean ====
section
/-! DEFINITION. The state that traps use and the return from one (R216 to R224), pending events, the monitor and its reports (R401, R485), and the
end of a partition (R399). -/

namespace Sys2Proof.Machine

/-- An event goes to its place in the order of R217; equal places keep the order of arrival. -/
def insertEvent (e : Event) (l : List Event) : List Event :=
  match l with
  | [] => [e]
  | x :: rest =>
    if x.item < e.item ∨ (x.item = e.item ∧ x.sub ≤ e.sub) then x :: insertEvent e rest else e :: x :: rest

/-- The number of trap frames on a strand's trusted stack: TSTAT.HDEPTH (R218). -/
def Strand.hdepth (t : Strand) : Nat := (t.frames.filter (·.trap)).length

/-- An event that a strand may take at its next boundary: interrupts wait while a handler runs (R217). -/
def Strand.takes (t : Strand) (e : Event) : Bool := decide (e.item ≠ 8) || decide (t.hdepth = 0)

/-- An event becomes pending at a strand; it ends a sleep (R242). An interrupt that reaches an Asleep strand whose handler still runs stays
held there (R217) and lets it sleep on: R242 names items 1 to 8 without this case (DESIGN CHOICE, log 12). -/
def State.post (s : State) (n : Nat) (e : Event) : State :=
  let t := s.strand n
  s.setStrand n { t with events := insertEvent e t.events,
                         status := if t.status = .asleep ∧ t.takes e = true then .running else t.status }

/-- The event that raises a cause, at its place of R217. -/
def mkEvent (item sub : Nat) (c : Cause) (tval tcap : Word) : Event :=
  { item := item, sub := sub, int := false, code := c.code, tval := tval, tcap := tcap }

/-- A code capability of rank 1, B8, class D, stride0 = 1 (R85, R181, R219, R238). -/
def codeShape (c : Cap) : Bool :=
  decide (c.rank = 1) && decide (c.fmt = 0) && decide (c.sparse = 0) && decide (c.stride 0 = 1)

/-- A capability with its seal removed. -/
def Cap.unsealed (c : Cap) : Cap := c.setField 115 12 0

/-- TVEC meets R219 and passes check 3 (R221). -/
def tvecOk (s : State) (p : Partition) : Bool :=
  let k := p.tvecCode
  let d := p.tvecData
  k.tag && d.tag && decide (k.otype ≠ 0) && decide (d.otype = k.otype) && k.has 5 && k.has 13 && codeShape k
    && (staleRecord s p k).isNone && (staleRecord s p d).isNone

/-- TCAUSE's value: INT in bit 63 (Table 7.6). -/
def tcauseWord (int : Bool) (code : BitVec 8) : Word := BitVec.ofNat 64 (int.toNat * 2 ^ 63 + code.toNat)

/-- The address of a strand's next instruction (R85). -/
def Strand.addr (t : Strand) : Word := BitVec.ofInt 64 ((t.pcc.base : Int) + t.pc)

/-- Bits of EVENTS word 0 set; an MSI-X vector 1 for each bit that changes from 0 to 1 (R485). -/
def State.reportBit (s : State) (pid k : Nat) : State :=
  let p := s.part pid
  let w := sget 0 p.ev 0
  let s := s.setPart pid { p with ev := sset 0 p.ev 0 (maskSet w k) }
  if w.getLsbD k then s else { s with outbox := s.outbox ++ [.msix pid 1] }

/-- A 16-bit count of EVENTS word 3, saturating (R485). -/
def bumpCount (w : Word) (k : Nat) : Word :=
  let v := w.toNat / 2 ^ (16 * k) % 2 ^ 16
  if v = 65535 then w else w + BitVec.ofNat 64 (2 ^ (16 * k))

/-- An event that reached no monitor is reported (R485): which of UE, ALLASLEEP, failed trap entry, and its record. -/
def State.reportEvent (s : State) (pid kind : Nat) (rec : Word) : State :=
  let p := s.part pid
  let ev := sset 0 p.ev 3 (bumpCount (sget 0 p.ev 3) kind)
  let ev := match kind with
    | 0 => sset 0 ev 1 rec
    | 2 => sset 0 ev 2 rec
    | _ => ev
  (s.setPart pid { p with ev := ev }).reportBit pid kind

/-- A strand of a partition, where its state now lies: in its context or in what a swap keeps. -/
def State.strandIn (s : State) (pid n : Nat) : Strand :=
  match (s.part pid).onDies, (s.part pid).saved with
  | false, some v => sget Strand.reset v.strands n
  | _, _ => s.strand n

/-- An event for a strand of a partition; one that arrives while the partition is swapped out is kept (R447). -/
def State.postIn (s : State) (pid n : Nat) (e : Event) : State :=
  match (s.part pid).onDies, (s.part pid).saved with
  | false, some v =>
    let t := sget Strand.reset v.strands n
    let t := { t with events := insertEvent e t.events, status := if t.status = .asleep ∧ t.takes e = true then .running else t.status }
    s.setPart pid { s.part pid with saved := some { v with strands := sset Strand.reset v.strands n t } }
  | _, _ => s.post n e

/-- The monitor strand of a partition that can take an event (R401): PMON names it on this card and its context holds a strand
that is not Stopped. -/
def State.monitor (s : State) (pid : Nat) : Option Nat :=
  let p := s.part pid
  let w := p.pmon.toNat
  let n := w % 2 ^ 12
  if bitOf w 13 && !(bitOf w 12) && p.present && p.desc.clusters.getLsbD (clusterOf n) then
    match (s.strandIn pid n).status with
    | .free => none
    | .ended => none
    | .stopped => none
    | _ => some n
  else none

/-- PMON names a strand of the peer card of a paired partition (Table 17.5). -/
def Partition.monitorAway (p : Partition) : Bool := bitOf p.pmon.toNat 13 && bitOf p.pmon.toNat 12 && p.paired.isSome

/-- An event that the monitor takes (R401): posted at it, sent to the peer card where it is a strand of that card, else reported in EVENTS with its
record (R485). -/
def State.toMonitor (s : State) (pid : Nat) (e : Event) (kind : Nat) (rec : Word) : State :=
  match s.monitor pid with
  | some m => s.postIn pid m e
  | none =>
    if (s.part pid).monitorAway then { s with outbox := s.outbox ++ [.peerEvent pid ((s.part pid).pmon.toNat % 2 ^ 12) e] }
    else s.reportEvent pid kind rec

/-- A strand whose engine operations are gone: it waits for none of them. -/
def Strand.unengaged (t : Strand) : Strand :=
  { t with vbusy := 0, soPeer := false, parts := [], status := if t.status = .inMma then .running else t.status }

/-- The strands of a table stopped, but for the monitor, which is left at an instruction boundary: an MMA that it is inside is discarded. -/
def stopStrands (l : Sparse Strand) (mine : Nat → Bool) (mon : Option Nat) : Sparse Strand :=
  l.map fun e =>
    if mine e.1 = false then e
    else if some e.1 = mon then (e.1, e.2.unengaged)
    else if e.2.status ≠ .free then (e.1, { e.2 with status := .stopped, wait := .none, soPeer := false, parts := [] }) else e

/-- Packets posted to the peer by a partition are no longer awaited. -/
def State.dropPosted (s : State) (pid : Nat) : State :=
  { s with unacked := skeep (fun k => !(if k < 4096 then decide (s.pidOf k = some pid) else decide (k = 4096 + pid))) s.unacked }

/-- A partition ends as under UE (R399): its strands but the monitor stop, its queues, launches, subscriptions and merge slots
are discarded, its Seam requests abandoned, and TERM is reported with the cause of termination (R485). -/
def State.terminate (s : State) (pid : Nat) (tcode : Nat) : State :=
  let mon := s.monitor pid
  let s := match mon with
    | some m => s.finishParts m
    | none => s
  let mine (cl : Nat) : Bool := decide (s.pidOfCluster cl = some pid)
  let strands := stopStrands s.strands (fun n => mine (clusterOf n)) mon
  let cores := s.cores.map fun e =>
    if mine (e.1 / 8) then
      (e.1, { e.2 with mq := [], mqStored := [], cq := [], reqs := [], lockQ := [], locks := [], arrivals := [] }) else e
  let clusters := s.clusters.map fun e =>
    if mine e.1 then (e.1, { e.2 with launches := [], order := [], kv := [], kvWait := [], pass := none, merge := [], mgWait := [] }) else e
  let dies := s.dies.map fun e => (e.1, { e.2 with lq := sset LinkQueue.reset e.2.lq pid LinkQueue.reset })
  let p := s.part pid
  let ev := sset 0 p.ev 0 (BitVec.ofNat 64 ((sget 0 p.ev 0).toNat % 256 + tcode * 256))
  let s := s.dropPosted pid
  let s : State := { s with strands := strands, cores := cores.filter fun e => decide (e.2 ≠ Core.reset),
                            clusters := clusters.filter fun e => decide (e.2 ≠ Cluster.reset),
                            dies := dies.filter fun e => decide (e.2 ≠ Die.reset) }
  let saved := p.saved.map fun v => { v with strands := stopStrands v.strands (fun _ => true) mon }
  (s.setPart pid { p with run := .terminated, ev := ev, cwords := [], liveTags := [], saved := saved }).reportBit pid 3

/-- A UE of a partition (R399): termination, then UE at the monitor or in EVENTS. A second one is only logged. -/
def State.raiseUe (s : State) (pid : Nat) (rec : Word) : State :=
  if (s.part pid).run = .terminated then s.setPart pid { s.part pid with errlog := (s.part pid).errlog + 1 }
  else
    (s.terminate pid 1).toMonitor pid (mkEvent 1 0 .ue rec 0) 0 rec

/-- Return from a trap (R222), once the checks have passed. -/
def Strand.tret (t : Strand) (f : Frame) (rest : List Frame) : Strand :=
  { ((t.setC 30 f.c30).setC 31 f.c31) with
    frames := rest
    pcc := f.pcc
    pc := t.tepc.toInt - (f.pcc.base : Int)
    repdone := t.trep
    trep := f.repsave
    bskip := true }

/-- The hold count of the bank lock that a strand holds rises by one (R265). -/
def State.countFor (s : State) (n : Nat) : State :=
  let k := s.core (coreOf n)
  match k.lockedBy n with
  | none => s
  | some b => match k.lockOf b with
    | some l => s.setCore (coreOf n) { k with locks := sset none k.locks b (some { l with count := l.count + 1 }) }
    | none => s

/-- The event of an interrupt (R224). -/
def interruptEvent (code : BitVec 8) : Event := { item := 8, sub := 0, int := true, code := code, tval := 0, tcap := 0 }

/-- An interrupt for a partition's monitor (R224, R455); with no monitor that can take it, nothing happens (log 12). -/
def State.interrupt (s : State) (pid : Nat) (code : BitVec 8) : State :=
  match s.monitor pid with
  | some m => s.postIn pid m (interruptEvent code)
  | none =>
    if (s.part pid).monitorAway then
      { s with outbox := s.outbox ++ [.peerEvent pid ((s.part pid).pmon.toNat % 2 ^ 12) (interruptEvent code)] }
    else s

/-- The requests that a strand has placed at a cluster are withdrawn (R361, R373). -/
def Cluster.withdraw (c : Cluster) (n : Nat) : Cluster :=
  { c with kvWait := c.kvWait.filter fun r => decide (r.strand ≠ n), mgWait := c.mgWait.filter fun r => decide (r.strand ≠ n) }

/-- The requests that a strand has placed with other units are withdrawn (R23, R202, R270, R361, R373). -/
def State.withdraw (s : State) (n : Nat) : State :=
  let drop (k : Core) : Core :=
    { k with reqs := k.reqs.filter fun r => decide (r.strand ≠ n), lockQ := k.lockQ.filter fun r => decide (r.2.1 ≠ n),
             arrivals := k.arrivals.filter fun r => decide (r.strand ≠ n) }
  let cores := s.cores.map fun e => (e.1, drop e.2)
  let s : State := { s with cores := cores.filter fun e => decide (e.2 ≠ Core.reset) }
  s.setCluster (clusterOf n) ((s.cluster (clusterOf n)).withdraw n)

end Sys2Proof.Machine
end

