-- ==== Sys2Proof/Machine/Integer.lean ====
section
/-! DEFINITION. Integer operations (R88 to R91): what each writes to x[rd]. The extra argument of a repeatable effect is the offset
that REP adds to a memory access (R70); integer operations ignore it. -/

namespace Sys2Proof.Machine

/-- Latency of integer ALU operations, LUI, CSRR and MOVFG (Table 2.2). -/
def latAlu : Nat := 2
/-- Latency of MUL, MULH, MULHN (Table 2.2). -/
def latMul : Nat := 4

/-- The shift count b[5:0]. -/
def count6 (b : Word) : Nat := b.toNat % 64

/-- 1 or 0 as a word. -/
def flagWord (b : Bool) : Word := if b then 1 else 0

/-- The count of leading zero bits of the low `n` bits, from the top. -/
def leadingZeros (a : Word) (n : Nat) : Nat :=
  match n with
  | 0 => 0
  | k + 1 => if a.getLsbD k then 0 else 1 + leadingZeros a k

/-- The count of trailing zero bits from bit `i`, over `n` bits. -/
def trailingZeros (a : Word) (i n : Nat) : Nat :=
  match n with
  | 0 => 0
  | k + 1 => if a.getLsbD i then 0 else 1 + trailingZeros a (i + 1) k

/-- The count of one bits among the low `n` bits. -/
def popCount {w : Nat} (a : BitVec w) (n : Nat) : Nat :=
  match n with
  | 0 => 0
  | k + 1 => (a.getLsbD k).toNat + popCount a k

/-- Signed quotient of R89 and Table 3.3, truncated towards zero. -/
def divS (a b : Word) : Word := if b = 0 then BitVec.allOnes 64 else BitVec.ofInt 64 (a.toInt.tdiv b.toInt)
/-- Unsigned quotient. -/
def divU (a b : Word) : Word := if b = 0 then BitVec.allOnes 64 else BitVec.ofNat 64 (a.toNat / b.toNat)
/-- Signed remainder, with the sign of the dividend. -/
def remS (a b : Word) : Word := if b = 0 then a else BitVec.ofInt 64 (a.toInt.tmod b.toInt)
/-- Unsigned remainder. -/
def remU (a b : Word) : Word := if b = 0 then a else BitVec.ofNat 64 (a.toNat % b.toNat)

/-- A two-operand integer operation: x[rd] := OP(x[rs1], x[rs2]) (R88). -/
def effRR (op : Word → Word → Word) (lat : Nat) (a : RArgs) (s : State) : Except Stop State :=
  .ok (s.putX lat a.rd (op (s.me.readX a.rs1) (s.me.readX a.rs2)))

/-- A one-operand integer operation. -/
def effRU (op : Word → Word) (lat : Nat) (a : RArgs) (s : State) : Except Stop State :=
  .ok (s.putX lat a.rd (op (s.me.readX a.rs1)))

/-- An immediate operation: x[rd] := OP(x[rs1], SExt(imm, 64)) (R90). -/
def effRI (op : Word → Word → Word) (a : IArgs) (s : State) : Except Stop State :=
  .ok (s.putX latAlu a.rd (op (s.me.readX a.rs1) (sext64 a.imm)))

/-- ADD. -/
def effAdd (a : RArgs) := effRR (· + ·) latAlu a
/-- SUB. -/
def effSub (a : RArgs) := effRR (· - ·) latAlu a
/-- AND. -/
def effAnd (a : RArgs) := effRR (· &&& ·) latAlu a
/-- OR. -/
def effOr (a : RArgs) := effRR (· ||| ·) latAlu a
/-- XOR. -/
def effXor (a : RArgs) := effRR (· ^^^ ·) latAlu a
/-- SLL. -/
def effSll (a : RArgs) := effRR (fun x y => x <<< count6 y) latAlu a
/-- SRL. -/
def effSrl (a : RArgs) := effRR (fun x y => x >>> count6 y) latAlu a
/-- SRA. -/
def effSra (a : RArgs) := effRR (fun x y => x.sshiftRight (count6 y)) latAlu a
/-- ROL. -/
def effRol (a : RArgs) := effRR (fun x y => x.rotateLeft (count6 y)) latAlu a
/-- ROR. -/
def effRor (a : RArgs) := effRR (fun x y => x.rotateRight (count6 y)) latAlu a
/-- SLT. -/
def effSlt (a : RArgs) := effRR (fun x y => flagWord (x.slt y)) latAlu a
/-- SLTN. -/
def effSltn (a : RArgs) := effRR (fun x y => flagWord (x.ult y)) latAlu a
/-- MIN. -/
def effMin (a : RArgs) := effRR (fun x y => if x.slt y then x else y) latAlu a
/-- MAX. -/
def effMax (a : RArgs) := effRR (fun x y => if x.slt y then y else x) latAlu a
/-- MINN. -/
def effMinn (a : RArgs) := effRR (fun x y => if x.ult y then x else y) latAlu a
/-- MAXN. -/
def effMaxn (a : RArgs) := effRR (fun x y => if x.ult y then y else x) latAlu a
/-- MUL. -/
def effMul (a : RArgs) := effRR (· * ·) latMul a
/-- MULH. -/
def effMulh (a : RArgs) := effRR (fun x y => BitVec.ofInt 64 (x.toInt * y.toInt / 2 ^ 64)) latMul a
/-- MULHN. -/
def effMulhn (a : RArgs) := effRR (fun x y => BitVec.ofNat 64 (x.toNat * y.toNat / 2 ^ 64)) latMul a
/-- DIV. -/
def effDiv (a : RArgs) := effRR divS 0 a
/-- DIVN. -/
def effDivn (a : RArgs) := effRR divU 0 a
/-- REM. -/
def effRem (a : RArgs) := effRR remS 0 a
/-- REMN. -/
def effRemn (a : RArgs) := effRR remU 0 a
/-- CLZ. -/
def effClz (a : RArgs) := effRU (fun x => BitVec.ofNat 64 (leadingZeros x 64)) latAlu a
/-- CTZ. -/
def effCtz (a : RArgs) := effRU (fun x => BitVec.ofNat 64 (trailingZeros x 0 64)) latAlu a
/-- POPC. -/
def effPopc (a : RArgs) := effRU (fun x => BitVec.ofNat 64 (popCount x 64)) latAlu a
/-- ADDI. -/
def effAddi (a : IArgs) := effRI (· + ·) a
/-- ANDI. -/
def effAndi (a : IArgs) := effRI (· &&& ·) a
/-- ORI. -/
def effOri (a : IArgs) := effRI (· ||| ·) a
/-- XORI. -/
def effXori (a : IArgs) := effRI (· ^^^ ·) a
/-- SLLI: the count is imm[5:0]. -/
def effSlli (a : IArgs) := effRI (fun x y => x <<< count6 y) a
/-- SRLI. -/
def effSrli (a : IArgs) := effRI (fun x y => x >>> count6 y) a
/-- SRAI. -/
def effSrai (a : IArgs) := effRI (fun x y => x.sshiftRight (count6 y)) a
/-- SLTI. -/
def effSlti (a : IArgs) := effRI (fun x y => flagWord (x.slt y)) a
/-- LUI (R91): the immediate shifted left by 10, sign-extended from bit 27. -/
def effLui (a : UArgs) (s : State) : Except Stop State :=
  .ok (s.putX latAlu a.rd (sext64 (a.imm ++ (0 : BitVec 10))))

end Sys2Proof.Machine
end

