-- ==== Sys2Proof/Machine/Flags.lean ====
section
/-! DEFINITION. The numerical flags (Table 4.6, at the bit positions of FFLAGS, R50) and the one rounding step of the machine:
exact numbers, RoundTo and Decode (R11, R12, R118 to R129). -/

namespace Sys2Proof.Machine

/-- Invalid operation. -/
def flNV : BitVec 8 := 0x01
/-- Division by zero. -/
def flDZ : BitVec 8 := 0x02
/-- Overflow. -/
def flOF : BitVec 8 := 0x04
/-- Underflow. -/
def flUF : BitVec 8 := 0x08
/-- Inexact. -/
def flNX : BitVec 8 := 0x10
/-- A clamped value. -/
def flSAT : BitVec 8 := 0x20
/-- An I4X outlier was decoded. -/
def flOUT : BitVec 8 := 0x40
/-- A NaN encoding was decoded. -/
def flNANI : BitVec 8 := 0x80

/-- The rounding modes in FRM codes (Table 2.7). -/
inductive Rm | rne | rtz | rdn | rup
  deriving DecidableEq, Repr

/-- The mode of a code. -/
def rmOf (n : Nat) : Rm :=
  match n with
  | 0 => .rne
  | 1 => .rtz
  | 2 => .rdn
  | _ => .rup

/-- A decoded number: NaN, an infinity, or (-1)^neg × mant × 2^exp. A mantissa of 0 is a signed zero. A quotient, a root or a
transcendental value that has no such form is held with one extra low bit set, which rounds as the exact value does. -/
inductive Num
  | nan
  | inf (neg : Bool)
  | fin (neg : Bool) (mant : Nat) (exp : Int)
  deriving DecidableEq, Repr

/-- A value with the flags raised on the way to it. -/
abbrev Flagged (α : Type) := α × BitVec 8

/-- The number of an integer. -/
def Num.ofInt (i : Int) : Num := .fin (decide (i < 0)) i.natAbs 0

/-- A floating-point format (Table 4.2): width, mantissa bits and bias. -/
structure FloatFmt where
  width : Nat
  mant : Nat
  bias : Nat
  deriving DecidableEq, Repr

/-- FP32. -/
def fp32 : FloatFmt := { width := 32, mant := 23, bias := 127 }
/-- BF16. -/
def bf16 : FloatFmt := { width := 16, mant := 7, bias := 127 }
/-- FP16. -/
def fp16 : FloatFmt := { width := 16, mant := 10, bias := 15 }
/-- F8A. -/
def f8a : FloatFmt := { width := 8, mant := 3, bias := 7 }
/-- F8B. -/
def f8b : FloatFmt := { width := 8, mant := 2, bias := 15 }

/-- The all-ones exponent. -/
def FloatFmt.emax (f : FloatFmt) : Nat := 2 ^ (f.width - 1 - f.mant) - 1
/-- The encoding of +∞ (R120). -/
def FloatFmt.infEnc (f : FloatFmt) : Nat := f.emax * 2 ^ f.mant
/-- The canonical NaN (Table 4.3). -/
def FloatFmt.nanEnc (f : FloatFmt) : Nat := f.infEnc + 2 ^ (f.mant - 1)
/-- The sign bit of an encoding. -/
def FloatFmt.signBit (f : FloatFmt) (neg : Bool) : Nat := if neg then 2 ^ (f.width - 1) else 0

/-- Decode of a floating-point format (R119 to R122); a NaN raises NANI. -/
def FloatFmt.decode (f : FloatFmt) (enc : Nat) : Flagged Num :=
  let neg := bitOf enc (f.width - 1)
  let e := enc / 2 ^ f.mant % 2 ^ (f.width - 1 - f.mant)
  let m := enc % 2 ^ f.mant
  if e = f.emax then (if m = 0 then (.inf neg, 0) else (.nan, flNANI))
  else if e = 0 then (.fin neg m (1 - f.bias - f.mant), 0)
  else (.fin neg (2 ^ f.mant + m) ((e : Int) - f.bias - f.mant), 0)

/-- The number of bits of a natural number. -/
def bitLength (n : Nat) : Nat := if n = 0 then 0 else Nat.log2 n + 1

/-- `m × 2^(-sh)` rounded to a natural number in a mode, and whether that changed it; a negative `sh` shifts left. -/
def shiftRound (rm : Rm) (neg : Bool) (m : Nat) (sh : Int) : Nat × Bool :=
  if sh ≤ 0 then (m * 2 ^ (-sh).toNat, false)
  else
    let k := sh.toNat
    let q := m / 2 ^ k
    let r := m % 2 ^ k
    let up := match rm with
      | .rne => decide (2 ^ k < 2 * r) || (decide (2 * r = 2 ^ k) && decide (q % 2 = 1))
      | .rtz => false
      | .rdn => neg && decide (r ≠ 0)
      | .rup => !neg && decide (r ≠ 0)
    (if up then q + 1 else q, decide (r ≠ 0))

/-- An overflow goes to infinity (Table 4.4). -/
def overflowsToInf (rm : Rm) (neg : Bool) : Bool :=
  match rm with
  | .rne => true
  | .rtz => false
  | .rdn => neg
  | .rup => !neg

/-- RoundTo a floating-point format (R124 to R126): the encoding and the flags. -/
def FloatFmt.round (f : FloatFmt) (v : Num) (rm : Rm) (sat : Bool) : Flagged Nat :=
  match v with
  | .nan => (f.nanEnc, 0)
  | .inf neg => (f.signBit neg + f.infEnc, 0)
  | .fin neg m e =>
    if m = 0 then (f.signBit neg, 0)
    else
      let top : Int := bitLength m + e
      let low : Int := 1 - f.bias - f.mant
      let unit := max (top - (f.mant + 1)) low
      let (q, inexact) := shiftRound rm neg m (unit - e)
      let enc := (unit - low).toNat * 2 ^ f.mant + q
      if f.infEnc ≤ enc then
        if sat then (f.signBit neg + f.infEnc - 1, flSAT ||| flNX)
        else if overflowsToInf rm neg then (f.signBit neg + f.infEnc, flOF ||| flNX)
        else (f.signBit neg + f.infEnc - 1, flOF ||| flNX)
      else
        let tiny := decide (top ≤ 1 - f.bias)
        (f.signBit neg + enc, (if inexact then flNX else 0) ||| (if inexact && tiny then flUF else 0))

/-- RoundTo an integer format of `w` bits (R128, Table 4.5; R99 for S64). -/
def roundInt (w : Nat) (signed : Bool) (v : Num) (rm : Rm) (sat : Bool) : Flagged Nat :=
  let indef := 2 ^ (w - 1)
  let lo : Int := if signed then -2 ^ (w - 1) else 0
  let hi : Int := if signed then 2 ^ (w - 1) - 1 else 2 ^ w - 1
  match v with
  | .nan => if sat then (0, flNV) else (indef, flNV)
  | .inf neg => if sat then (lowBits w (if neg then lo else hi), flSAT ||| flNX) else (indef, flNV)
  | .fin neg m e =>
    let (q, inexact) := shiftRound rm neg m (-e)
    let i : Int := if neg then -(q : Int) else q
    let nx := if inexact then flNX else 0
    if lo ≤ i ∧ i ≤ hi then (lowBits w i, nx)
    else if sat then (lowBits w (if i < lo then lo else hi), flSAT ||| flNX)
    else (indef, flNV ||| nx)

/-- What an element format code of Table 1.3 is as a number format; B8 counts as Z8 (R118). -/
inductive NumFmt
  | float (f : FloatFmt)
  | int (w : Nat) (signed : Bool)
  deriving DecidableEq, Repr

/-- The number format of a code; none for CAP, I4X and reserved codes. -/
def numFmt (code : Nat) : Option NumFmt :=
  match code with
  | 0x00 => some (.int 8 false)
  | 0x01 => some (.int 8 true)
  | 0x02 => some (.int 8 false)
  | 0x03 => some (.int 16 true)
  | 0x04 => some (.int 16 false)
  | 0x05 => some (.int 32 true)
  | 0x06 => some (.int 32 false)
  | 0x07 => some (.int 64 true)
  | 0x08 => some (.int 64 false)
  | 0x10 => some (.float fp16)
  | 0x11 => some (.float bf16)
  | 0x12 => some (.float fp32)
  | 0x14 => some (.float f8a)
  | 0x15 => some (.float f8b)
  | _ => none

/-- Width in bits. -/
def NumFmt.width (f : NumFmt) : Nat :=
  match f with
  | .float g => g.width
  | .int w _ => w

/-- The two's complement value of the low `w` bits. -/
def signedOf (w v : Nat) : Int := (BitVec.ofNat w v).toInt

/-- Decode of R12 on any number format. -/
def NumFmt.decode (f : NumFmt) (enc : Nat) : Flagged Num :=
  match f with
  | .float g => g.decode enc
  | .int w true => (Num.ofInt (signedOf w enc), 0)
  | .int w false => (Num.ofInt (enc % 2 ^ w), 0)

/-- RoundTo of R11 on any number format. -/
def NumFmt.round (f : NumFmt) (v : Num) (rm : Rm) (sat : Bool) : Flagged Nat :=
  match f with
  | .float g => g.round v rm sat
  | .int w s => roundInt w s v rm sat

/-- A conversion of one element: Decode, then RoundTo. -/
def convert (src dst : NumFmt) (rm : Rm) (sat : Bool) (enc : Nat) : Flagged Nat :=
  let v := src.decode enc
  let r := dst.round v.1 rm sat
  (r.1, v.2 ||| r.2)

end Sys2Proof.Machine
end

