-- ==== Sys2Proof/Machine/Formats.lean ====
section
/-! DEFINITION. Exact arithmetic on decoded numbers (R94 to R96, R123, R127, R151, Table 5.4): each operation gives the exact result
before its one rounding, and the flags that the operation itself raises. I4X pairs and their scaling (R133 to R136). -/

namespace Sys2Proof.Machine

/-- A NaN made from operands none of which is a NaN (Table 4.6). -/
def invalid : Flagged Num := (.nan, flNV)

/-- Sign inverted. -/
def Num.neg (a : Num) : Num :=
  match a with
  | .nan => .nan
  | .inf s => .inf (!s)
  | .fin s m e => .fin (!s) m e

/-- The value is a NaN. -/
def Num.isNan (a : Num) : Bool :=
  match a with
  | .nan => true
  | _ => false

/-- Signed mantissa at an exponent no higher than the value's own. -/
def alignTo (neg : Bool) (m : Nat) (e low : Int) : Int :=
  let v : Int := (m * 2 ^ (e - low).toNat : Nat)
  if neg then -v else v

/-- Exact sum (R127). -/
def Num.add (a b : Num) (rm : Rm) : Flagged Num :=
  match a, b with
  | .nan, _ => (.nan, 0)
  | _, .nan => (.nan, 0)
  | .inf s, .inf t => if s = t then (.inf s, 0) else invalid
  | .inf s, .fin _ _ _ => (.inf s, 0)
  | .fin _ _ _, .inf t => (.inf t, 0)
  | .fin s m e, .fin t n f =>
    let low := min e f
    let v := alignTo s m e low + alignTo t n f low
    if v = 0 then (.fin (if s = t then s else decide (rm = .rdn)) 0 0, 0)
    else (.fin (decide (v < 0)) v.natAbs low, 0)

/-- Exact product. -/
def Num.mul (a b : Num) : Flagged Num :=
  match a, b with
  | .nan, _ => (.nan, 0)
  | _, .nan => (.nan, 0)
  | .inf s, .inf t => (.inf (s != t), 0)
  | .inf s, .fin t n _ => if n = 0 then invalid else (.inf (s != t), 0)
  | .fin s m _, .inf t => if m = 0 then invalid else (.inf (s != t), 0)
  | .fin s m e, .fin t n f => (.fin (s != t) (m * n) (e + f), 0)

/-- Exact a × b + c; a NaN operand c raises no NV, whatever the product (Table 4.6). -/
def Num.fma (a b c : Num) (rm : Rm) : Flagged Num :=
  if a.isNan || b.isNan || c.isNan then (.nan, 0)
  else
    let p := a.mul b
    let s := p.1.add c rm
    (s.1, p.2 ||| s.2)

/-- Guard bits kept in a quotient or a root. -/
def guardBits : Nat := 72

/-- Quotient. -/
def Num.div (a b : Num) : Flagged Num :=
  match a, b with
  | .nan, _ => (.nan, 0)
  | _, .nan => (.nan, 0)
  | .inf _, .inf _ => invalid
  | .inf s, .fin t _ _ => (.inf (s != t), 0)
  | .fin s _ _, .inf t => (.fin (s != t) 0 0, 0)
  | .fin s m e, .fin t n f =>
    if n = 0 then (if m = 0 then invalid else (.inf (s != t), flDZ))
    else if m = 0 then (.fin (s != t) 0 0, 0)
    else
      let k := guardBits + bitLength n
      let q := m * 2 ^ k / n
      let r := m * 2 ^ k % n
      (.fin (s != t) (2 * q + (decide (r ≠ 0)).toNat) (e - f - k - 1), 0)

/-- The integer square root: bits `fuel - 1` down to 0 of the root, from the root so far. -/
def isqrtFrom (n root fuel : Nat) : Nat :=
  match fuel with
  | 0 => root
  | k + 1 => isqrtFrom n (if (root + 2 ^ k) * (root + 2 ^ k) ≤ n then root + 2 ^ k else root) k

/-- The integer square root. -/
def isqrt (n : Nat) : Nat := isqrtFrom n 0 (bitLength n / 2 + 1)

/-- Square root (R94, Table 5.4). -/
def Num.sqrt (a : Num) : Flagged Num :=
  match a with
  | .nan => (.nan, 0)
  | .inf neg => if neg then invalid else (.inf false, 0)
  | .fin neg m e =>
    if m = 0 then (a, 0)
    else if neg then invalid
    else
      let k := guardBits + ((e - guardBits) % 2).toNat
      let n := m * 2 ^ k
      let r := isqrt n
      (.fin false (2 * r + (decide (r * r ≠ n)).toNat) ((e - k) / 2 - 1), 0)

/-- Reciprocal square root (Table 5.4). -/
def Num.rsqrt (a : Num) : Flagged Num :=
  match a with
  | .nan => (.nan, 0)
  | .inf neg => if neg then invalid else (.fin false 0 0, 0)
  | .fin neg m e =>
    if m = 0 then (.inf neg, flDZ)
    else if neg then invalid
    else
      let odd := (e % 2).toNat
      let n := m * 2 ^ odd
      let k := guardBits + bitLength n
      let r := isqrt (2 ^ (2 * k) / n)
      (.fin false (2 * r + (decide (r * r * n ≠ 2 ^ (2 * k))).toNat) (-(e - odd) / 2 - k - 1), 0)

/-- Reciprocal (Table 5.4). -/
def Num.rcp (a : Num) : Flagged Num := (Num.fin false 1 0).div a

/-- The order of two numbers, -0 equal to +0; none with a NaN. -/
def Num.cmp (a b : Num) : Option Ordering :=
  match a, b with
  | .nan, _ => none
  | _, .nan => none
  | .inf s, .inf t => some (if s = t then .eq else if s then .lt else .gt)
  | .inf s, .fin _ _ _ => some (if s then .lt else .gt)
  | .fin _ _ _, .inf t => some (if t then .gt else .lt)
  | .fin s m e, .fin t n f =>
    let low := min e f
    some (compare (alignTo s m e low) (alignTo t n f low))

/-- The sign of a number that is not a NaN. -/
def Num.isNeg (a : Num) : Bool :=
  match a with
  | .nan => false
  | .inf s => s
  | .fin s _ _ => s

/-- FMIN and FMAX (R95, R152): an operand's encoding, unrounded, -0 below +0. -/
def FloatFmt.pick (f : FloatFmt) (wantMax : Bool) (ea eb : Nat) : Flagged Nat :=
  let a := f.decode ea
  let b := f.decode eb
  let fl := a.2 ||| b.2
  match a.1.cmp b.1 with
  | none => if a.1.isNan && b.1.isNan then (f.nanEnc, fl) else if a.1.isNan then (eb, fl) else (ea, fl)
  | some o =>
    let less := match o with
      | .lt => true
      | .gt => false
      | .eq => a.1.isNeg && !b.1.isNeg
    let greater := match o with
      | .lt => false
      | .gt => true
      | .eq => b.1.isNeg && !a.1.isNeg
    ((if wantMax then (if less then eb else ea) else if greater then eb else ea), fl)

/-- The conditions of FCMP and VCMP. -/
inductive Cond | eq | ne | lt | le
  deriving DecidableEq, Repr

/-- A floating-point comparison (R96, R160). -/
def FloatFmt.test (f : FloatFmt) (c : Cond) (ea eb : Nat) : Flagged Bool :=
  let a := f.decode ea
  let b := f.decode eb
  let fl := a.2 ||| b.2
  match a.1.cmp b.1, c with
  | none, .eq => (false, fl)
  | none, .ne => (true, fl)
  | none, .lt => (false, fl ||| flNV)
  | none, .le => (false, fl ||| flNV)
  | some o, .eq => (o == .eq, fl)
  | some o, .ne => (o != .eq, fl)
  | some o, .lt => (o == .lt, fl)
  | some o, .le => (o != .gt, fl)

/-- An operation on one operand, rounded once. -/
def FloatFmt.op1 (f : FloatFmt) (op : Num → Flagged Num) (rm : Rm) (ea : Nat) : Flagged Nat :=
  let a := f.decode ea
  let v := op a.1
  let r := f.round v.1 rm false
  (r.1, a.2 ||| v.2 ||| r.2)

/-- An operation on two operands, rounded once. -/
def FloatFmt.op2 (f : FloatFmt) (op : Num → Num → Flagged Num) (rm : Rm) (ea eb : Nat) : Flagged Nat :=
  let a := f.decode ea
  let b := f.decode eb
  let v := op a.1 b.1
  let r := f.round v.1 rm false
  (r.1, a.2 ||| b.2 ||| v.2 ||| r.2)

/-- An operation on three operands, rounded once. -/
def FloatFmt.op3 (f : FloatFmt) (op : Num → Num → Num → Flagged Num) (rm : Rm) (ea eb ec : Nat) : Flagged Nat :=
  let a := f.decode ea
  let b := f.decode eb
  let c := f.decode ec
  let v := op a.1 b.1 c.1
  let r := f.round v.1 rm false
  (r.1, a.2 ||| b.2 ||| c.2 ||| v.2 ||| r.2)

/-- Exact a - b. -/
def Num.sub (rm : Rm) (a b : Num) : Flagged Num := a.add b.neg rm

/-! I4X (R133 to R136). -/

/-- The value of a nibble that is not the outlier marker (Table 4.8). -/
def nibbleValue (q : Nat) : Int := if q < 8 then (q : Int) else (q : Int) - 16

/-- The outlier's value from its payload nibble (R134). -/
def outlierValue (p : Nat) : Int := if bitOf p 3 then -(2 ^ (p % 8 + 3) : Int) else 2 ^ (p % 8 + 3)

/-- One element of a byte (Table 4.9): its integer value and the OUT flag; none for the illegal pair 0x88. -/
def i4xDecode (byte : Nat) (odd : Bool) : Option (Flagged Int) :=
  let lo := byte % 16
  let hi := byte / 16 % 16
  let mine := if odd then hi else lo
  let other := if odd then lo else hi
  if mine = 8 ∧ other = 8 then none
  else if mine = 8 then some (outlierValue other, flOUT)
  else if other = 8 then some (0, 0)
  else some (nibbleValue mine, 0)

/-- An I4X element decoded to BF16 with its scale (R136): the encoding and the flags of both steps. The integer 0 is taken as +0, so that a
negative scale gives -0: R136 gives its zero no sign (DESIGN CHOICE, log 78). -/
def i4xScale (i : Flagged Int) (scale : Nat) : Flagged Nat :=
  let s := bf16.decode scale
  let p := s.1.mul (Num.ofInt i.1)
  let r := fp32.round p.1 .rne false
  let d := fp32.decode r.1
  let q := bf16.round d.1 .rne false
  (q.1, i.2 ||| s.2 ||| p.2 ||| r.2 ||| q.2)

end Sys2Proof.Machine
end

