-- ==== Sys2Proof/Machine/Elementary.lean ====
section
/-! DEFINITION. e^a, 2^a and log₂ a (R131, R132, Table 4.7). Each is evaluated in fixed point with 512 fractional bits and carries one
extra low bit set, so that its single rounding to FP32 is that of the exact value (log 13). -/

namespace Sys2Proof.Machine

/-- Fractional bits of the evaluation. -/
def fixBits : Nat := 512

/-- One in fixed point. -/
def fixOne : Nat := 2 ^ fixBits

/-- The terms of x^k / k! from k = `k` on, `t` the last one, for a fixed-point `x`. -/
def expTerms (x : Int) (t : Int) (k fuel : Nat) : Int :=
  match fuel with
  | 0 => 0
  | n + 1 =>
    let u := t * x / (fixOne * k : Nat)
    u + expTerms x u (k + 1) n

/-- e^x in fixed point for |x| ≤ 1. -/
def fixExp (x : Int) : Int := fixOne + expTerms x fixOne 1 120

/-- The terms z^(2j+1) / (2j+1) of the inverse hyperbolic tangent, `t` the power z^(2j+1). -/
def atanhTerms (zz t : Nat) (odd fuel : Nat) : Nat :=
  match fuel with
  | 0 => 0
  | n + 1 => t / odd + atanhTerms zz (t * zz / fixOne) (odd + 2) n

/-- ln y = 2 artanh((y - 1) / (y + 1)) in fixed point, for y in [1, 2]. -/
def fixLn (y : Nat) : Nat :=
  let z := (y - fixOne) * fixOne / (y + fixOne)
  2 * atanhTerms (z * z / fixOne) z 1 170

/-- ln 2 in fixed point. -/
def fixLn2 : Nat := fixLn (2 * fixOne)

/-- A number in fixed point, rounded down. -/
def fixOf (neg : Bool) (m : Nat) (e : Int) : Int :=
  let v : Int := (m * 2 ^ (e + fixBits).toNat / 2 ^ (-(e + fixBits)).toNat : Nat)
  if neg then -v else v

/-- A fixed-point value times 2^n, marked as inexact. -/
def fixNum (v : Int) (n : Int) : Num := .fin (decide (v < 0)) (2 * v.natAbs + 1) (n - fixBits - 1)

/-- e^a. Outside ±200 the value lies beyond FP32 and stands for itself by a power of two out of range. -/
def Num.exp (a : Num) : Flagged Num :=
  match a with
  | .nan => (.nan, 0)
  | .inf neg => if neg then (.fin false 0 0, 0) else (.inf false, 0)
  | .fin neg m e =>
    if m = 0 then (.fin false 1 0, 0)
    else
      let big : Bool := decide (8 < bitLength m + e)
      if big then (if neg then (.fin false 1 (-400), 0) else (.fin false 1 400, 0))
      else
        let x := fixOf neg m e
        let n := x / (fixLn2 : Int)
        (fixNum (fixExp (x - n * fixLn2)) n, 0)

/-- 2^a. -/
def Num.exp2 (a : Num) : Flagged Num :=
  match a with
  | .nan => (.nan, 0)
  | .inf neg => if neg then (.fin false 0 0, 0) else (.inf false, 0)
  | .fin neg m e =>
    if m = 0 then (.fin false 1 0, 0)
    else
      let big : Bool := decide (8 < bitLength m + e)
      if big then (if neg then (.fin false 1 (-400), 0) else (.fin false 1 400, 0))
      else
        let x := fixOf neg m e
        let n := x / (fixOne : Int)
        let frac := x - n * fixOne
        if frac = 0 then (.fin false 1 n, 0)
        else (fixNum (fixExp (frac * fixLn2 / fixOne)) n, 0)

/-- log₂ a. -/
def Num.log2 (a : Num) : Flagged Num :=
  match a with
  | .nan => (.nan, 0)
  | .inf neg => if neg then invalid else (.inf false, 0)
  | .fin neg m e =>
    if m = 0 then (.inf true, flDZ)
    else if neg then invalid
    else
      let n : Int := bitLength m - 1 + e
      let y := m * fixOne / 2 ^ (bitLength m - 1)
      if y = fixOne then (Num.ofInt n, 0)
      else (fixNum (n * fixOne + (fixLn y * fixOne / fixLn2 : Nat)) 0, 0)

end Sys2Proof.Machine
end

