-- ==== Sys2Proof/Machine/Float.lean ====
section
/-! DEFINITION. Scalar floating-point arithmetic and FCVT (R92 to R99). Operands are the low bits of x registers; results are
zero-extended; flags merge into FFLAGS. -/

namespace Sys2Proof.Machine

/-- Latency of scalar floating point and FCVT (Table 2.2). -/
def latFp : Nat := 4

/-- The format of a scalar floating-point type. -/
def fmtOf (t : FTy) : FloatFmt :=
  match t with
  | .f32 => fp32
  | .bf16 => bf16
  | .fp16 => fp16

/-- The low `w` bits of a word. -/
def lowWord (w : Nat) (x : Word) : Nat := x.toNat % 2 ^ w

/-- The rounding mode in FRM. -/
def Strand.rm (t : Strand) : Rm := rmOf t.frm.toNat

/-- Result and flags of a scalar floating-point operation. -/
def State.putF (s : State) (lat rd : Nat) (r : Flagged Nat) : State := (s.putX lat rd (BitVec.ofNat 64 r.1)).orFlags r.2

/-- An operation on x[rs1] and x[rs2]. -/
def effF2 (op : FloatFmt → Rm → Nat → Nat → Flagged Nat) (lat : Nat) (a : FArgs) (s : State) : Except Stop State :=
  let f := fmtOf a.ty
  .ok (s.putF lat a.rd (op f s.me.rm (lowWord f.width (s.me.readX a.rs1)) (lowWord f.width (s.me.readX a.rs2))))

/-- A comparison's 1 or 0. -/
def flagNat (r : Flagged Bool) : Flagged Nat := (r.1.toNat, r.2)

/-- FADD. -/
def effFadd (a : FArgs) := effF2 (fun f rm => f.op2 (fun x y => x.add y rm) rm) latFp a
/-- FSUB. -/
def effFsub (a : FArgs) := effF2 (fun f rm => f.op2 (Num.sub rm) rm) latFp a
/-- FMUL. -/
def effFmul (a : FArgs) := effF2 (fun f rm => f.op2 Num.mul rm) latFp a
/-- FFMA: x[rs1] × x[rs2] + x[rd]. -/
def effFfma (a : FArgs) (s : State) : Except Stop State :=
  effF2 (fun f rm x y => f.op3 (fun p q r => p.fma q r rm) rm x y (lowWord f.width (s.me.readX a.rd))) latFp a s
/-- FDIV. -/
def effFdiv (a : FArgs) := effF2 (fun f rm => f.op2 Num.div rm) 0 a
/-- FSQRT reads rs1 only. -/
def effFsqrt (a : FArgs) := effF2 (fun f rm x _ => f.op1 Num.sqrt rm x) 0 a
/-- FMIN. -/
def effFmin (a : FArgs) := effF2 (fun f _ => f.pick false) latFp a
/-- FMAX. -/
def effFmax (a : FArgs) := effF2 (fun f _ => f.pick true) latFp a
/-- FCMP.EQ. -/
def effFcmpEq (a : FArgs) := effF2 (fun f _ x y => flagNat (f.test .eq x y)) latFp a
/-- FCMP.LT. -/
def effFcmpLt (a : FArgs) := effF2 (fun f _ x y => flagNat (f.test .lt x y)) latFp a
/-- FCMP.LE. -/
def effFcmpLe (a : FArgs) := effF2 (fun f _ x y => flagNat (f.test .le x y)) latFp a

/-- The formats of FCVT's codes (R98). -/
def cvtFmt (code : Fin 4) : NumFmt :=
  match code with
  | 0 => .float fp32
  | 1 => .float bf16
  | 2 => .float fp16
  | 3 => .int 64 true

/-- FCVT (R98, R99). -/
def effFcvt (a : CvtArgs) (s : State) : Except Stop State :=
  let src := cvtFmt a.src
  .ok (s.putF latFp a.rd (convert src (cvtFmt a.dst) (rmOf a.rm.val) a.sat (lowWord src.width (s.me.readX a.rs1))))

end Sys2Proof.Machine
end

