-- ==== Sys2Proof/Machine/Vector.lean ====
section
/-! DEFINITION. Vector and predicate instructions (chapter 5, R143 to R169) but for the predicate branches and vector memory access. -/

namespace Sys2Proof.Machine

/-- Latency of vector arithmetic, permutes and comparisons (Table 2.2). -/
def latVec : Nat := 6
/-- Latency of vector conversion (Table 2.2). -/
def latCvt : Nat := 4
/-- Latency of VEXP, VEXP2, VLOG2 and VRED (Table 2.2). -/
def latVecLong : Nat := 10
/-- Latency of the predicate group (Table 2.2). -/
def latPred : Nat := 2

/-- Element `i` of width `w` bytes (R16, R143). -/
def elemOf (v : Vec) (w i : Nat) : Nat := v.toNat / 2 ^ (8 * w * i) % 2 ^ (8 * w)

/-- The register whose elements 0 to n - 1 of width `w` are given, and whose other bytes are zero. -/
def packLanes (w : Nat) (n : Nat) (f : Nat → Nat) : Nat :=
  match n with
  | 0 => 0
  | k + 1 => packLanes w k f + f k % 2 ^ (8 * w) * 2 ^ (8 * w * k)

/-- The flags of elements 0 to n - 1. -/
def laneFlags (n : Nat) (f : Nat → BitVec 8) : BitVec 8 :=
  match n with
  | 0 => 0
  | k + 1 => laneFlags k f ||| f k

/-- Element `i` of width `w` is active (R144). -/
def active (p : Pred) (w i : Nat) : Bool := p.getLsbD (w * i)

/-- A merging operation on elements (R144): active elements from `f`, the others kept; `n` elements, the bytes beyond them zero. -/
def lanes (w n : Nat) (p : Pred) (old : Vec) (f : Nat → Flagged Nat) : Flagged Vec :=
  (BitVec.ofNat 1024 (packLanes w n fun i => if active p w i then (f i).1 else elemOf old w i),
   laneFlags n fun i => if active p w i then (f i).2 else 0)

/-- The predicate that gives element `i` of width `w` the value of `f i` in all its bits. -/
def packPred (w n : Nat) (f : Nat → Bool) : Pred :=
  BitVec.ofNat 128 (packLanesBits w n f)
where
  /-- The bits of elements 0 to n - 1. -/
  packLanesBits (w n : Nat) (f : Nat → Bool) : Nat :=
    match n with
    | 0 => 0
    | k + 1 => packLanesBits w k f + (f k).toNat * (2 ^ w - 1) * 2 ^ (w * k)

/-- The bytes that a merging operation on `n` elements of width `w` leaves as they are: those of inactive elements. -/
def laneKeep (w n : Nat) (p : Pred) : Pred := packPred w n fun i => !(active p w i)

/-- The types of R150: 0 F32, 1 BF16, 2 FP16, 3 S32. -/
def vecFmt (f2 : Fin 4) : NumFmt :=
  match f2 with
  | 0 => .float fp32
  | 1 => .float bf16
  | 2 => .float fp16
  | 3 => .int 32 true

/-- Bytes of an element of a number format. -/
def NumFmt.bytes (f : NumFmt) : Nat := f.width / 8

/-- A vector result and its flags. -/
def State.putVF (s : State) (lat rd : Nat) (r : Flagged Vec) : State := (s.putV lat rd r.1).orFlags r.2

/-- A merging vector result and its flags; it leaves the bytes of `keep` as they are. -/
def State.putMF (s : State) (lat rd : Nat) (keep : Pred) (r : Flagged Vec) : State := (s.putM lat rd keep r.1).orFlags r.2

/-- The result of a merging operation on `n` elements of width `w`, without flags: `f` gives the active ones. -/
def State.putLanes (s : State) (lat rd w n : Nat) (p : Pred) (f : Nat → Nat) : State :=
  s.putM lat rd (laneKeep w n p) (lanes w n p (s.me.readV rd) fun i => (f i, 0)).1

/-- The inactive bytes of an operation on elements of the type in f2. -/
def typeKeep (f2 : Fin 4) (p : Pred) : Pred := laneKeep (vecFmt f2).bytes (128 / (vecFmt f2).bytes) p

/-- An element operation of majors 0x20 to 0x28 on (a, b, c) (R150): a float operation or an integer operation. -/
def vecLanes (f2 : Fin 4) (fop : FloatFmt → Nat → Nat → Nat → Flagged Nat) (iop : Int → Int → Int → Int) (p : Pred)
    (va vb vc : Vec) : Flagged Vec :=
  match vecFmt f2 with
  | .float f =>
    let w := f.width / 8
    lanes w (128 / w) p vc fun i => fop f (elemOf va w i) (elemOf vb w i) (elemOf vc w i)
  | .int w _ =>
    lanes 4 32 p vc fun i =>
      (lowBits w (iop (signedOf w (elemOf va 4 i)) (signedOf w (elemOf vb 4 i)) (signedOf w (elemOf vc 4 i))), 0)

/-- A binary or ternary vector operation. -/
def effV2 (fop : Rm → FloatFmt → Nat → Nat → Nat → Flagged Nat) (iop : Int → Int → Int → Int) (lat : Nat) (a : VArgs)
    (s : State) : Except Stop State :=
  .ok (s.putMF lat a.vd (typeKeep a.f2 (s.me.readP a.pg)) (vecLanes a.f2 (fop s.me.rm) iop (s.me.readP a.pg) (s.me.readV a.vs1)
    (s.me.readV a.vs2) (s.me.readV a.vd)))

/-- A unary vector operation of major 0x28. -/
def effV1 (fop : Rm → FloatFmt → Nat → Flagged Nat) (iop : Int → Int) (lat : Nat) (a : VuArgs) (s : State) :
    Except Stop State :=
  .ok (s.putMF lat a.vd (typeKeep a.f2 (s.me.readP a.pg)) (vecLanes a.f2 (fun f x _ _ => fop s.me.rm f x) (fun x _ _ => iop x)
    (s.me.readP a.pg) (s.me.readV a.vs1) 0 (s.me.readV a.vd)))

/-- VADD. -/
def effVadd (a : VArgs) := effV2 (fun rm f x y _ => f.op2 (fun p q => p.add q rm) rm x y) (fun x y _ => x + y) latVec a
/-- VSUB. -/
def effVsub (a : VArgs) := effV2 (fun rm f x y _ => f.op2 (Num.sub rm) rm x y) (fun x y _ => x - y) latVec a
/-- VMUL. -/
def effVmul (a : VArgs) := effV2 (fun rm f x y _ => f.op2 Num.mul rm x y) (fun x y _ => x * y) latVec a
/-- VFMA: c + a × b. A decoder gives it no S32 form. -/
def effVfma (a : VArgs) := effV2 (fun rm f x y z => f.op3 (fun p q r => p.fma q r rm) rm x y z) (fun x y z => z + x * y) latVec a
/-- VFMS: c - a × b. A decoder gives it no S32 form. -/
def effVfms (a : VArgs) :=
  effV2 (fun rm f x y z => f.op3 (fun p q r => p.neg.fma q r rm) rm x y z) (fun x y z => z - x * y) latVec a
/-- VDIV. A decoder gives it no S32 form. -/
def effVdiv (a : VArgs) := effV2 (fun rm f x y _ => f.op2 Num.div rm x y) (fun x _ _ => x) 0 a
/-- VMIN. -/
def effVmin (a : VArgs) := effV2 (fun _ f x y _ => f.pick false x y) (fun x y _ => min x y) latVec a
/-- VMAX. -/
def effVmax (a : VArgs) := effV2 (fun _ f x y _ => f.pick true x y) (fun x y _ => max x y) latVec a

/-- A sign operation (R153): a NaN gives the canonical NaN. -/
def signOp (flip : Bool → Bool) (f : FloatFmt) (x : Nat) : Flagged Nat :=
  let d := f.decode x
  if d.1.isNan then (f.nanEnc, d.2)
  else (x % 2 ^ (f.width - 1) + f.signBit (flip (bitOf x (f.width - 1))), d.2)

/-- VSQRT. -/
def effVsqrt (a : VuArgs) := effV1 (fun rm f x => f.op1 Num.sqrt rm x) id 0 a
/-- VRSQ. -/
def effVrsq (a : VuArgs) := effV1 (fun rm f x => f.op1 Num.rsqrt rm x) id 0 a
/-- VRCP. -/
def effVrcp (a : VuArgs) := effV1 (fun rm f x => f.op1 Num.rcp rm x) id 0 a
/-- VABS. -/
def effVabs (a : VuArgs) := effV1 (fun _ f x => signOp (fun _ => false) f x) (fun x => x.natAbs) latVec a
/-- VNEG. -/
def effVneg (a : VuArgs) := effV1 (fun _ f x => signOp (fun b => !b) f x) (fun x => -x) latVec a
/-- VEXP rounds to nearest whatever FRM holds (R131). -/
def effVexp (a : VuArgs) := effV1 (fun _ f x => f.op1 Num.exp .rne x) id latVecLong a
/-- VEXP2. -/
def effVexp2 (a : VuArgs) := effV1 (fun _ f x => f.op1 Num.exp2 .rne x) id latVecLong a
/-- VLOG2. -/
def effVlog2 (a : VuArgs) := effV1 (fun _ f x => f.op1 Num.log2 .rne x) id latVecLong a

/-! VDOT (R154). -/

/-- Exact c + a0 × b0 + a1 × b1, rounded once to FP32; NV when no operand is a NaN and the sum is (Table 4.6). -/
def dotFloat (f : FloatFmt) (rm : Rm) (a0 b0 a1 b1 c : Nat) : Flagged Nat :=
  let x0 := f.decode a0
  let y0 := f.decode b0
  let x1 := f.decode a1
  let y1 := f.decode b1
  let z := fp32.decode c
  let din := x0.2 ||| y0.2 ||| x1.2 ||| y1.2 ||| z.2
  let p0 := x0.1.mul y0.1
  let p1 := x1.1.mul y1.1
  let anyNan := x0.1.isNan || y0.1.isNan || x1.1.isNan || y1.1.isNan || z.1.isNan
  let t := z.1.add p0.1 rm
  let u := t.1.add p1.1 rm
  let sameSign := z.1.isNeg == p0.1.isNeg && z.1.isNeg == p1.1.isNeg
  let exact := match u.1 with
    | .fin _ 0 e => Num.fin (if sameSign then z.1.isNeg else decide (rm = .rdn)) 0 e
    | v => v
  let r := fp32.round exact rm false
  if anyNan then (fp32.nanEnc, din) else (r.1, din ||| p0.2 ||| p1.2 ||| t.2 ||| u.2 ||| r.2)

/-- Byte `k` of a 32-bit element as a signed number. -/
def byteAt (x k : Nat) : Int := signedOf 8 (x / 2 ^ (8 * k))

/-- c plus the four products of bytes, wrapping. -/
def dotBytes (x y c : Nat) : Nat :=
  lowBits 32 (signedOf 32 c + byteAt x 0 * byteAt y 0 + byteAt x 1 * byteAt y 1 + byteAt x 2 * byteAt y 2
    + byteAt x 3 * byteAt y 3)

/-- One 32-bit element of VDOT. -/
def dotElem (f2 : Fin 4) (rm : Rm) (x y c : Nat) : Flagged Nat :=
  match vecFmt f2 with
  | .float f => dotFloat f rm (x % 2 ^ 16) (y % 2 ^ 16) (x / 2 ^ 16) (y / 2 ^ 16) c
  | .int _ _ => (dotBytes x y c, 0)

/-- VDOT; f2 names BF16, FP16 or S8. -/
def effVdot (a : VArgs) (s : State) : Except Stop State :=
  let t := s.me
  .ok (s.putMF latVec a.vd (laneKeep 4 32 (t.readP a.pg)) (lanes 4 32 (t.readP a.pg) (t.readV a.vd) fun i =>
    dotElem a.f2 t.rm (elemOf (t.readV a.vs1) 4 i) (elemOf (t.readV a.vs2) 4 i) (elemOf (t.readV a.vd) 4 i)))

/-! Shifts, logic and selection (R155, R156). -/

/-- A merging operation on elements of `w` bytes without flags. -/
def effLanes (w : Nat) (op : Nat → Nat → Nat) (a : VfArgs) (s : State) : Except Stop State :=
  let t := s.me
  .ok (s.putLanes latVec a.vd w (128 / w) (t.readP a.pg) fun i =>
    op (elemOf (t.readV a.vs1) w i) (elemOf (t.readV a.vs2) w i))

/-- VSLL. -/
def effVsll (a : VfArgs) := effLanes 4 (fun x y => x * 2 ^ (y % 32)) a
/-- VSRL. -/
def effVsrl (a : VfArgs) := effLanes 4 (fun x y => x / 2 ^ (y % 32)) a
/-- VSRA. -/
def effVsra (a : VfArgs) := effLanes 4 (fun x y => lowBits 32 (signedOf 32 x / 2 ^ (y % 32))) a
/-- VAND. -/
def effVand (a : VfArgs) := effLanes 1 (fun x y => x &&& y) a
/-- VOR. -/
def effVor (a : VfArgs) := effLanes 1 (fun x y => x ||| y) a
/-- VXOR. -/
def effVxor (a : VfArgs) := effLanes 1 (fun x y => x ^^^ y) a
/-- VSEL writes every byte, from vs1 or vs2 by the predicate. -/
def effVsel (a : VfArgs) (s : State) : Except Stop State :=
  let t := s.me
  .ok (s.putV latVec a.vd (lanes 1 128 (t.readP a.pg) (t.readV a.vs2) fun i => (elemOf (t.readV a.vs1) 1 i, 0)).1)

/-! Conversions (R157, R158, Table 2.10). -/

/-- The destination and source formats of a pair code; codes 20 to 31 are not decoded. -/
def pairFmts (pair : Nat) : NumFmt × NumFmt :=
  match pair with
  | 0 => (.float fp32, .float bf16)
  | 1 => (.float fp32, .float fp16)
  | 2 => (.float fp32, .float f8a)
  | 3 => (.float fp32, .float f8b)
  | 4 => (.float fp32, .int 32 true)
  | 5 => (.float bf16, .float fp32)
  | 6 => (.float fp16, .float fp32)
  | 7 => (.float f8a, .float fp32)
  | 8 => (.float f8b, .float fp32)
  | 9 => (.int 32 true, .float fp32)
  | 10 => (.int 16 true, .int 32 true)
  | 11 => (.int 8 true, .int 32 true)
  | 12 => (.int 32 true, .int 16 true)
  | 13 => (.int 32 true, .int 8 true)
  | 14 => (.int 8 false, .int 32 true)
  | 15 => (.int 32 true, .int 8 false)
  | 16 => (.float f8a, .float bf16)
  | 17 => (.float f8b, .float bf16)
  | 18 => (.float bf16, .float f8a)
  | _ => (.float bf16, .float f8b)

/-- A conversion of a whole register. -/
def cvtLanes (src dst : NumFmt) (rm : Rm) (sat : Bool) (p : Pred) (v old : Vec) : Flagged Vec :=
  lanes dst.bytes (128 / max src.bytes dst.bytes) p old fun i => convert src dst rm sat (elemOf v src.bytes i)

/-- The inactive bytes of a conversion. -/
def cvtKeep (src dst : NumFmt) (p : Pred) : Pred := laneKeep dst.bytes (128 / max src.bytes dst.bytes) p

/-- VCVT and VCVT.SAT. -/
def effCvtV (sat : Bool) (a : VArgs) (s : State) : Except Stop State :=
  let t := s.me
  let f := pairFmts a.vs2
  .ok (s.putMF latCvt a.vd (cvtKeep f.2 f.1 (t.readP a.pg))
    (cvtLanes f.2 f.1 (rmOf a.f2.val) sat (t.readP a.pg) (t.readV a.vs1) (t.readV a.vd)))

/-- VCVT. -/
def effVcvt (a : VArgs) := effCvtV false a
/-- VCVT.SAT. -/
def effVcvtSat (a : VArgs) := effCvtV true a

/-! Permutes and lane moves (R164, R165). -/

/-- The width of a code: 1, 2, 4 or 8 bytes. -/
def widthOf (f2 : Fin 4) : Nat := 2 ^ f2.val

/-- VPERM. -/
def effVperm (a : VArgs) (s : State) : Except Stop State :=
  let t := s.me
  let w := widthOf a.f2
  .ok (s.putLanes latVec a.vd w (128 / w) (t.readP a.pg) fun i =>
    let k := elemOf (t.readV a.vs2) w i
    if k < 128 / w then elemOf (t.readV a.vs1) w k else 0)

/-- VSLIDE: vs1 names the x register. -/
def effVslide (a : VuArgs) (s : State) : Except Stop State :=
  let t := s.me
  let w := widthOf a.f2
  let k := (t.readX a.vs1).toInt
  .ok (s.putLanes latVec a.vd w (128 / w) (t.readP a.pg) fun i =>
    let j : Int := i - k
    if 0 ≤ j ∧ j < (128 / w : Nat) then elemOf (t.readV a.vd) w j.toNat else 0)

/-- VBCAST. -/
def effVbcast (a : VuArgs) (s : State) : Except Stop State :=
  let t := s.me
  let w := widthOf a.f2
  .ok (s.putLanes latVec a.vd w (128 / w) (t.readP a.pg) fun _ => (t.readX a.vs1).toNat)

/-- The lowest `i` below `n` with bit `w × i` of a predicate set. -/
def firstActive (p : Pred) (w n : Nat) : Option Nat := (List.range n).find? fun i => active p w i

/-- VMOVX: the vd field names an x register. -/
def effVmovx (a : VuArgs) (s : State) : Except Stop State :=
  let w := widthOf a.f2
  let v := match firstActive (s.me.readP a.pg) w (128 / w) with
    | some i => elemOf (s.me.readV a.vs1) w i
    | none => 0
  .ok (s.putX latVec a.vd (BitVec.ofNat 64 v))

/-- VIOTA. -/
def effViota (a : VuArgs) (s : State) : Except Stop State :=
  let t := s.me
  let w := widthOf a.f2
  .ok (s.putLanes latVec a.vd w (128 / w) (t.readP a.pg) fun i => i)

/-! Comparison and reduction (R159 to R163). -/

/-- The condition codes of R159. -/
def condOf (n : Nat) : Cond :=
  match n with
  | 0 => .eq
  | 1 => .ne
  | 2 => .lt
  | _ => .le

/-- A signed comparison. -/
def intTest (c : Cond) (x y : Int) : Bool :=
  match c with
  | .eq => decide (x = y)
  | .ne => decide (x ≠ y)
  | .lt => decide (x < y)
  | .le => decide (x ≤ y)

/-- One element of VCMP. -/
def cmpElem (f : NumFmt) (c : Cond) (x y : Nat) : Flagged Bool :=
  match f with
  | .float g => g.test c x y
  | .int w _ => (intTest c (signedOf w x) (signedOf w y), 0)

/-- VCMP: the vd field is the condition, then pd. -/
def effVcmp (a : VArgs) (s : State) : Except Stop State :=
  let t := s.me
  let f := vecFmt a.f2
  let w := f.bytes
  let p := t.readP a.pg
  let r (i : Nat) := cmpElem f (condOf (a.vd.val / 8)) (elemOf (t.readV a.vs1) w i) (elemOf (t.readV a.vs2) w i)
  .ok ((s.putP latVec (a.vd.val % 8) (packPred w (128 / w) fun i => active p w i && (r i).1)).orFlags
    (laneFlags (128 / w) fun i => if active p w i then (r i).2 else 0))

/-- A node of the reduction tree. -/
abbrev Node := Option (Flagged Nat)

/-- A node from its two children (R162): an absent child yields the other. -/
def treeNode (comb : Nat → Nat → Flagged Nat) (a b : Node) : Node :=
  match a, b with
  | none, b => b
  | a, none => a
  | some x, some y =>
    let r := comb x.1 y.1
    some (r.1, x.2 ||| y.2 ||| r.2)

/-- The next level of the tree. -/
def treeLevel (comb : Nat → Nat → Flagged Nat) (l : List Node) : List Node :=
  match l with
  | a :: b :: rest => treeNode comb a b :: treeLevel comb rest
  | l => l

/-- The top of the tree after `k` levels. -/
def treeTop (comb : Nat → Nat → Flagged Nat) (l : List Node) (k : Nat) : Node :=
  match k with
  | 0 => l.headD none
  | k + 1 => treeTop comb (treeLevel comb l) k

/-- The leaves of the tree: active elements, in the encoding that nodes have. -/
def treeLeaves (p : Pred) (w n : Nat) (leaf : Nat → Flagged Nat) : List Node :=
  (List.range n).map fun i => if active p w i then some (leaf i) else none

/-- VRED's sum of floating-point elements: nodes are FP32 encodings, each rounding under FRM. -/
def redAddFloat (f : FloatFmt) (rm : Rm) (p : Pred) (v : Vec) : Flagged Nat :=
  let w := f.width / 8
  let n := 128 / w
  let comb (x y : Nat) : Flagged Nat :=
    let r := (fp32.decode x).1.add (fp32.decode y).1 rm
    let q := fp32.round r.1 rm false
    (q.1, r.2 ||| q.2)
  match treeTop comb (treeLeaves p w n fun i => convert (.float f) (.float fp32) rm false (elemOf v w i)) (Nat.log2 n) with
  | none => (0, 0)
  | some x =>
    let q := f.round (fp32.decode x.1).1 rm false
    (q.1, x.2 ||| q.2)

/-- VRED's selection among floating-point elements (R152). -/
def redPickFloat (wantMax : Bool) (f : FloatFmt) (p : Pred) (v : Vec) : Flagged Nat :=
  let w := f.width / 8
  let n := 128 / w
  match treeTop (f.pick wantMax) (treeLeaves p w n fun i => (elemOf v w i, 0)) (Nat.log2 n) with
  | none => (f.signBit wantMax + f.infEnc, 0)
  | some x =>
    let d := f.decode x.1
    (if d.1.isNan then f.nanEnc else x.1, x.2 ||| d.2 ||| laneFlags n fun i =>
      if active p w i then (f.decode (elemOf v w i)).2 else 0)

/-- VRED on S32: sum, minimum or maximum. -/
def redInt (op : Nat) (p : Pred) (v : Vec) : Nat :=
  let comb (x y : Nat) : Flagged Nat :=
    (match op with
      | 0 => lowBits 32 (signedOf 32 x + signedOf 32 y)
      | 1 => lowBits 32 (min (signedOf 32 x) (signedOf 32 y))
      | _ => lowBits 32 (max (signedOf 32 x) (signedOf 32 y)), 0)
  match treeTop comb (treeLeaves p 4 32 fun i => (elemOf v 4 i, 0)) 5 with
  | none => match op with
    | 0 => 0
    | 1 => 0x7FFFFFFF
    | _ => 0x80000000
  | some x => x.1

/-- VRED: vs2 holds the sub-operation; the result goes to element 0 and the rest of vd is zero. -/
def effVred (a : VArgs) (s : State) : Except Stop State :=
  let t := s.me
  let p := t.readP a.pg
  let v := t.readV a.vs1
  let r : Flagged Nat := match vecFmt a.f2, a.vs2.val with
    | .float f, 0 => redAddFloat f t.rm p v
    | .float f, 1 => redPickFloat false f p v
    | .float f, _ => redPickFloat true f p v
    | .int _ _, op => (redInt op p v, 0)
  .ok (s.putVF latVecLong a.vd (BitVec.ofNat 1024 r.1, r.2))

/-! Predicates (R166). -/

/-- A logical operation on whole predicates. -/
def effPP (op : Pred → Pred → Pred) (a : VpArgs) (s : State) : Except Stop State :=
  .ok (s.putP latPred a.vd (op (s.me.readP a.vs1) (s.me.readP a.vs2)))

/-- PAND. -/
def effPand (a : VpArgs) := effPP (· &&& ·) a
/-- POR. -/
def effPor (a : VpArgs) := effPP (· ||| ·) a
/-- PXOR. -/
def effPxor (a : VpArgs) := effPP (· ^^^ ·) a
/-- PNOT. -/
def effPnot (a : VpArgs) := effPP (fun p _ => ~~~p) a
/-- PFIRST. -/
def effPfirst (a : VpArgs) (s : State) : Except Stop State :=
  let w := widthOf a.f2
  let k := firstActive (s.me.readP a.vs1) w (128 / w)
  .ok (s.putP latPred a.vd (packPred w (128 / w) fun i => decide (k = some i)))
/-- PCNT: the vd field names an x register. -/
def effPcnt (a : VpArgs) (s : State) : Except Stop State :=
  let w := widthOf a.f2
  let n := ((List.range (128 / w)).filter fun i => active (s.me.readP a.vs1) w i).length
  .ok (s.putX latPred a.vd (BitVec.ofNat 64 n))
/-- VWHILE: the fields name x registers. -/
def effVwhile (a : VpArgs) (s : State) : Except Stop State :=
  let w := widthOf a.f2
  .ok (s.putP latPred a.vd (packPred w (128 / w) fun i =>
    decide ((s.me.readX a.vs1).toNat + i < (s.me.readX a.vs2).toNat)))

end Sys2Proof.Machine
end

