-- ==== Sys2Proof/Machine/Memory.lean ====
section
/-! DEFINITION. Loads and stores of a strand (R185 to R193): byte mode, element mode, capability and vector access. `off` is what a
REP repetition adds: units of the immediate in byte mode, elements of index i0 in element mode (R70). -/

namespace Sys2Proof.Machine

/-- LD. -/
def permLD : BitVec 14 := 0x0001
/-- ST. -/
def permST : BitVec 14 := 0x0002
/-- STC. -/
def permSTC : BitVec 14 := 0x0008
/-- EX. -/
def permEX : BitVec 14 := 0x0020
/-- ATOM. -/
def permATOM : BitVec 14 := 0x0040
/-- SYNC. -/
def permSYNC : BitVec 14 := 0x0080
/-- DMA. -/
def permDMA : BitVec 14 := 0x0100
/-- MXW. -/
def permMXW : BitVec 14 := 0x0200
/-- BIND. -/
def permBIND : BitVec 14 := 0x0400
/-- UNBIND. -/
def permUNBIND : BitVec 14 := 0x0800
/-- RETAG. -/
def permRETAG : BitVec 14 := 0x1000
/-- SYS. -/
def permSYS : BitVec 14 := 0x2000

/-- A strand's access of an alignment. -/
def accOf (s : State) (use : Use) (align : Nat) (byteMode : Bool) : Acc :=
  { use := use, align := align, byteMode := byteMode, strand := some s.cur, sealedOk := false }

/-- A byte-mode access of `n` bytes, checks 1 to 11 (R188). -/
def byteAccess (s : State) (reg : Nat) (o : Int) (n : Nat) (use : Use) : Except Stop Elem := do
  let c := s.me.readC reg
  check15 s c reg (if use.write then permST else permLD) (byteRun c)
  one (boundBytes c o n reg)
  one (placed s (s.pidOf s.cur) c reg (accOf s use n true) (c.base + o))

/-- A byte-mode load of `n` bytes. -/
def effLoad (n : Nat) (signed : Bool) (a : IArgs) (off : Int) (s : State) : Except Stop State := do
  let e ← byteAccess s a.rs1 ((a.imm.toInt + off) * n) n useRead
  let v := s.load e.pa n
  .ok ((s.touch e n false).putX 0 a.rd (if signed then BitVec.ofInt 64 (signedOf (8 * n) v) else BitVec.ofNat 64 v))

/-- A byte-mode store of `n` bytes. -/
def effStore (n : Nat) (a : SArgs) (off : Int) (s : State) : Except Stop State := do
  let e ← byteAccess s a.rs1 ((a.imm.toInt + off) * n) n useWrite
  .ok (s.storeElem e n (lowWord (8 * n) (s.me.readX a.rs2)))

/-- LB. -/
def effLb (a : IArgs) := effLoad 1 true a
/-- LH. -/
def effLh (a : IArgs) := effLoad 2 true a
/-- LW. -/
def effLw (a : IArgs) := effLoad 4 true a
/-- LD. -/
def effLd (a : IArgs) := effLoad 8 true a
/-- LBN. -/
def effLbn (a : IArgs) := effLoad 1 false a
/-- LHN. -/
def effLhn (a : IArgs) := effLoad 2 false a
/-- LWN. -/
def effLwn (a : IArgs) := effLoad 4 false a
/-- SB. -/
def effSb (a : SArgs) := effStore 1 a
/-- SH. -/
def effSh (a : SArgs) := effStore 2 a
/-- SW. -/
def effSw (a : SArgs) := effStore 4 a
/-- SD. -/
def effSd (a : SArgs) := effStore 8 a

/-- An element-mode access of one element, checks 1 to 11. -/
def elemAccess (s : State) (reg : Nat) (idx : List Int) (use : Use) : Except Stop Elem := do
  let c := s.me.readC reg
  check15 s c reg (if use.write then permST else permLD) (scalarShape c)
  one (placeElem s (s.pidOf s.cur) c reg (accOf s use (esize c.fmt) false) idx)

/-- The index vector of the M format, its first entry stepped. -/
def indexM (t : Strand) (a : MArgs) (off : Int) : List Int := [(t.readX a.xi).toInt + off, (t.readX a.xj).toInt]

/-- An element's encoding extended to 64 bits (R189). -/
def extendElem (fmt v : Nat) : Word :=
  if fmtSigned fmt then BitVec.ofInt 64 (signedOf (8 * esize fmt) v) else BitVec.ofNat 64 v

/-- LDE. -/
def effLde (a : MArgs) (off : Int) (s : State) : Except Stop State := do
  let f := (s.me.readC a.cs).fmt
  let e ← elemAccess s a.cs (indexM s.me a off) useRead
  .ok ((s.touch e (esize f) false).putX 0 a.rd (extendElem f (s.load e.pa (esize f))))

/-- STE: rd names the data register. -/
def effSte (a : MArgs) (off : Int) (s : State) : Except Stop State := do
  let n := esize (s.me.readC a.cs).fmt
  let e ← elemAccess s a.cs (indexM s.me a off) useWrite
  .ok (s.storeElem e n (lowWord (8 * n) (s.me.readX a.rd)))

/-- What LC and SC accept at check 5. -/
def capShape (c : Cap) : Bool := decide (c.sparse = 0) && decide (c.fmt = fmtCAP)

/-- LC: the tag is kept only when cs has LDC (R34, R190); during a sweep the granule is visited first (R442). -/
def effLc (a : VfArgs) (off : Int) (s : State) : Except Stop State := do
  let c := s.me.readC a.vs1
  check15 s c a.vs1 permLD (capShape c)
  let e ← one (placeElem s (s.pidOf s.cur) c a.vs1 (accOf s useRead 64 false) [(s.me.readX a.vs2).toInt + off])
  let s := s.visitRead s.myPart e.pa
  let v := s.loadCap e.pa
  .ok ((s.touch e 64 false).putC 0 a.vd { v with tag := v.tag && c.has 2 })

/-- Checks 7 and 8 on a stored capability value. -/
def checkStored (s : State) (v c : Cap) (reg : Nat) : Except Stop Unit := do
  if v.tag then
    checkGen s s.myPart v reg
    need (decide (v.reach ≠ 0) || c.has 4) .capReach (BitVec.ofNat 64 v.reach) reg

/-- SC: a tagged value also meets checks 7, 8 and 11 (R190). -/
def effSc (a : VfArgs) (off : Int) (s : State) : Except Stop State := do
  let c := s.me.readC a.vs1
  let v := s.me.readC a.vd
  let idx := [(s.me.readX a.vs2).toInt + off]
  check15 s c a.vs1 (if v.tag then permST ||| permSTC else permST) (capShape c)
  one (boundElem c idx a.vs1)
  checkStored s v c a.vd
  let e ← one (placed s (s.pidOf s.cur) c a.vs1
    (accOf s { write := true, tagged := v.tag, raw := false } 64 false) (elemAddr c idx))
  .ok (s.storeCapElem e v)

/-! Vector access (R191 to R193). -/

/-- Lanes that may take part: those of the register, and of an S32 index register when there is one. -/
def vecCount (w : Nat) (indexed : Bool) : Nat := if indexed then min (128 / w) 32 else 128 / w

/-- The active lanes of a vector access. -/
def activeLanes (p : Pred) (w n : Nat) : List Nat := (List.range n).filter fun i => active p w i

/-- Every active element placed, with its lane; or the first failing check of lowest order (R42). -/
def vecPlace (s : State) (reg pg : Nat) (use : Use) (indexed : Bool) (idx : Nat → Int) : Except Stop (List (Nat × Elem)) := do
  let c := s.me.readC reg
  check15 s c reg (if use.write then permST else permLD) (scalarShape c)
  let w := esize c.fmt
  gather ((activeLanes (s.me.readP pg) w (vecCount w indexed)).map fun i =>
    match placeElem s (s.pidOf s.cur) c reg (accOf s use w false) [idx i] with
    | .ok e => .ok (i, e)
    | .error f => .error f)

/-- A vector load: active elements move their raw encodings into vd. -/
def vecLoad (s : State) (reg pg vd : Nat) (indexed : Bool) (idx : Nat → Int) : Except Stop State := do
  let w := esize (s.me.readC reg).fmt
  let es ← vecPlace s reg pg useRead indexed idx
  let old := s.me.readV vd
  let f (i : Nat) : Nat := match es.find? fun e => decide (e.1 = i) with
    | some e => s.load e.2.pa w
    | none => elemOf old w i
  .ok ((s.touchAll ((inParts es).map (·.2)) w false).putV 0 vd (BitVec.ofNat 1024 (packLanes w (128 / w) f)))

/-- A vector store: one part for each page in ascending address, lanes in order within a part (R192, R418). -/
def vecStore (s : State) (reg pg vs : Nat) (indexed : Bool) (idx : Nat → Int) : Except Stop State := do
  let w := esize (s.me.readC reg).fmt
  let es ← vecPlace s reg pg useWrite indexed idx
  let v := s.me.readV vs
  .ok (s.writeParts s.cur (partsOf ((inParts es).map fun e =>
    { at_ := e.2.at_, size := w, value := elemOf v w e.1, objid := (s.me.readC reg).objid })))

/-- VLE. -/
def effVle (a : VfArgs) (off : Int) (s : State) : Except Stop State :=
  vecLoad s a.vs1 a.pg a.vd false fun i => (s.me.readX a.vs2).toInt + off + i
/-- VSE. -/
def effVse (a : VfArgs) (off : Int) (s : State) : Except Stop State :=
  vecStore s a.vs1 a.pg a.vd false fun i => (s.me.readX a.vs2).toInt + off + i
/-- VLSE: the step stands in the next x register. -/
def effVlse (a : VfArgs) (off : Int) (s : State) : Except Stop State :=
  vecLoad s a.vs1 a.pg a.vd false fun i => (s.me.readX a.vs2).toInt + off + i * (s.me.readX (a.vs2 + 1)).toInt
/-- VLXE: indices are the S32 lanes of vs2. -/
def effVlxe (a : VfArgs) (s : State) : Except Stop State :=
  vecLoad s a.vs1 a.pg a.vd true fun i => signedOf 32 (elemOf (s.me.readV a.vs2) 4 i)
/-- VSXE. -/
def effVsxe (a : VfArgs) (s : State) : Except Stop State :=
  vecStore s a.vs1 a.pg a.vd true fun i => signedOf 32 (elemOf (s.me.readV a.vs2) 4 i)

end Sys2Proof.Machine
end

