-- ==== Sys2Proof/Machine/Caps.lean ====
section
/-! DEFINITION. Derivations, queries, sealing and compartment calls (R170 to R184, R178, R179). -/

namespace Sys2Proof.Machine

/-- Latency of derivations and queries (Table 2.2). -/
def latCap : Nat := 3

/-- The operand word of Table 6.1: dimension K, dimension J, A and B. -/
def opK (a : Word) : Nat := a.toNat % 8
/-- Second dimension. -/
def opJ (a : Word) : Nat := a.toNat / 8 % 8
/-- First operand. -/
def opA (a : Word) : Int := (a.toNat / 2 ^ 8 % 2 ^ 20 : Nat)
/-- Second operand. -/
def opB (a : Word) : Int := (a.toNat / 2 ^ 28 % 2 ^ 20 : Nat)

/-- Extent and stride of dimension `k`; (0, 0) above the rank. -/
def View.dim (v : View) (k : Nat) : Int × Int := v.dims.getD k (0, 0)

/-- Dimension `k` replaced. -/
def View.setDim (v : View) (k : Nat) (d : Int × Int) : View := { v with dims := v.dims.set k d }

/-- Move of R172: none where its requirement fails. -/
def View.move (v : View) (d : Int) : Option Int :=
  if v.sparse ≠ 0 then (if d % 64 = 0 then some (v.base + d / 64 * groupSize v.fmt v.sparse) else none)
  else if v.fmt = fmtI4X then (if d % 2 = 0 then some (v.base + d / 2) else none)
  else some (v.base + esize v.fmt * d)

/-- The view with its base moved by `d` elements. -/
def View.moved (v : View) (d : Int) : Option View := (v.move d).map fun b => { v with base := b }

/-- A derivation on a view: none is CAP_DERIVE. -/
abbrev Derive := View → Word → Option View

/-- CSLICE. -/
def dSlice : Derive := fun v a =>
  let k := opK a
  if v.dims.length ≤ k ∨ (v.dim k).1 < opA a + opB a then none
  else (v.moved (opA a * (v.dim k).2)).map fun t => t.setDim k (opB a, (v.dim k).2)

/-- CSTEP. -/
def dStep : Derive := fun v a =>
  let k := opK a
  if v.dims.length ≤ k ∨ opA a = 0 then none
  else some (v.setDim k (((v.dim k).1 + opA a - 1) / opA a, (v.dim k).2 * opA a))

/-- CFLIP. -/
def dFlip : Derive := fun v a =>
  let k := opK a
  if v.dims.length ≤ k then none
  else
    let t := if (v.dim k).1 = 0 then some v else v.moved (((v.dim k).1 - 1) * (v.dim k).2)
    t.map fun t => t.setDim k ((v.dim k).1, -(v.dim k).2)

/-- CPERM. -/
def dPerm : Derive := fun v a =>
  let k := opK a
  let j := opJ a
  if v.dims.length ≤ k ∨ v.dims.length ≤ j then none
  else some ((v.setDim k (v.dim j)).setDim j (v.dim k))

/-- CSPLIT. -/
def dSplit : Derive := fun v a =>
  let k := opK a
  let d := v.dim k
  if v.dims.length ≤ k ∨ v.dims.length = 8 ∨ opA a = 0 ∨ d.1 % opA a ≠ 0 then none
  else some { v with dims := v.dims.take k ++ [(opA a, d.2), (d.1 / opA a, opA a * d.2)] ++ v.dims.drop (k + 1) }

/-- CMERGE. -/
def dMerge : Derive := fun v a =>
  let k := opK a
  let d := v.dim k
  let e := v.dim (k + 1)
  if v.dims.length ≤ k + 1 ∨ e.2 ≠ d.1 * d.2 then none
  else some { v with dims := v.dims.take k ++ [(d.1 * e.1, d.2)] ++ v.dims.drop (k + 2) }

/-- CFIX. -/
def dFix : Derive := fun v a =>
  let k := opK a
  if v.dims.length ≤ k ∨ v.dims.length = 1 ∨ (v.dim k).1 ≤ opA a then none
  else (v.moved (opA a * (v.dim k).2)).map fun t => { t with dims := v.dims.eraseIdx k }

/-- CBCAST: ST and ATOM are cleared. -/
def dBcast : Derive := fun v a =>
  let k := opK a
  if v.dims.length < k ∨ v.dims.length = 8 then none
  else some { v with dims := v.dims.take k ++ [(opA a, 0)] ++ v.dims.drop k, perms := v.perms &&& ~~~(permST ||| permATOM) }

/-- CANDP. -/
def dAndp : Derive := fun v a => some { v with perms := v.perms &&& a.setWidth 14 }

/-- CREACH. -/
def dReach : Derive := fun v a => if v.reach < a.toNat % 4 then none else some { v with reach := a.toNat % 4 }

/-- CRETAG's new kind. -/
def dRetag : Derive := fun v a =>
  let k := a.toNat % 4096
  if fmtBits (k / 64) ≠ fmtBits v.fmt ∨ k / 8 % 8 ≠ v.sparse then none
  else some { v with fmt := k / 64, layout := k % 8 }

/-- The checks that every derivation makes on its source (R170); `keyOk` for CANDP and CREACH, which accept a type key (R178). -/
def checkDerive (s : Cap) (keyOk : Bool) (reg : Nat) : Except Stop Unit := do
  need s.tag .capTag 0 reg
  need (decide (s.otype = 0) || (keyOk && s.isTypeKey)) .capSeal (BitVec.ofNat 64 s.otype) reg
  need s.codesOk .capFormat s.word1 reg

/-- The result of a derivation as a view: CAP_DERIVE where Table 6.2 or Shaped fails. -/
def deriveView (op : Derive) (c : Cap) (a : Word) (reg : Nat) : Except Stop View :=
  match op c.view a with
  | none => fault .capDerive a reg
  | some t => if shaped t then .ok t else fault .capDerive a reg

/-- The derived capability into c[rd]. A base that the 55-bit field cannot hold, which only an empty element set can have, is cut to its low 55
bits, as an assignment to a narrower field is (R7, log 14). -/
def State.putView (s : State) (rd : Nat) (t : View) : State := s.putC latCap rd { t.cap with tag := true }

/-- A derivation instruction. -/
def effDerive (op : Derive) (keyOk : Bool) (a : RArgs) (s : State) : Except Stop State := do
  let c := s.me.readC a.rs1
  checkDerive c keyOk a.rs1
  let t ← deriveView op c (s.me.readX a.rs2) a.rs1
  .ok (s.putView a.rd t)

/-- CSLICE. -/
def effCslice (a : RArgs) := effDerive dSlice false a
/-- CSTEP. -/
def effCstep (a : RArgs) := effDerive dStep false a
/-- CFLIP. -/
def effCflip (a : RArgs) := effDerive dFlip false a
/-- CPERM. -/
def effCperm (a : RArgs) := effDerive dPerm false a
/-- CSPLIT. -/
def effCsplit (a : RArgs) := effDerive dSplit false a
/-- CMERGE. -/
def effCmerge (a : RArgs) := effDerive dMerge false a
/-- CFIX. -/
def effCfix (a : RArgs) := effDerive dFix false a
/-- CBCAST. -/
def effCbcast (a : RArgs) := effDerive dBcast false a
/-- CANDP. -/
def effCandp (a : RArgs) := effDerive dAndp true a
/-- CREACH. -/
def effCreach (a : RArgs) := effDerive dReach true a

/-- The kind in a CRETAG operand holds no reserved code. -/
def kindOk (k : Nat) : Bool := (fmtBits (k / 64)).isSome && decide (k / 8 % 8 < 5) && decide (k % 8 < 5)

/-- CRETAG (R174). -/
def effCretag (a : RArgs) (s : State) : Except Stop State := do
  let c := s.me.readC a.rs1
  let x := s.me.readX a.rs2
  checkDerive c false a.rs1
  need (c.has 12) .capPerm 0x1000 a.rs1
  need (kindOk (x.toNat % 4096)) .capFormat x a.rs1
  let t ← deriveView dRetag c x a.rs1
  .ok (s.putView a.rd t)

/-- CMOVE (R175). -/
def effCmove (a : RArgs) (s : State) : Except Stop State := .ok (s.putC latCap a.rd (s.me.readC a.rs1))
/-- CCLEAR. -/
def effCclear (a : RArgs) (s : State) : Except Stop State :=
  .ok (s.putC latCap a.rd { s.me.readC a.rs1 with tag := false })

/-- Table 6.4. -/
def getField (c : Cap) (sel : Nat) : Word :=
  match sel with
  | 0 => BitVec.ofNat 64 c.base
  | 1 => BitVec.ofNat 64 c.gen
  | 2 => BitVec.ofNat 64 c.objid
  | 3 => BitVec.ofNat 64 c.rank
  | 4 => BitVec.ofNat 64 c.fmt
  | 5 => BitVec.ofNat 64 c.sparse
  | 6 => BitVec.ofNat 64 c.layout
  | 7 => BitVec.ofNat 64 c.kind
  | 8 => c.perms.setWidth 64
  | 9 => BitVec.ofNat 64 c.reach
  | 10 => BitVec.ofNat 64 c.otype
  | 11 => flagWord c.tag
  | n =>
    if 16 ≤ n ∧ n < 24 then BitVec.ofNat 64 (c.extent (n - 16))
    else if 24 ≤ n ∧ n < 32 then BitVec.ofInt 64 (c.stride (n - 24))
    else 0

/-- CGETF. -/
def effCgetf (a : RArgs) (s : State) : Except Stop State :=
  .ok (s.putX latCap a.rd (getField (s.me.readC a.rs1) (s.me.readX a.rs2).toNat))
/-- CTEST. -/
def effCtest (a : RArgs) (s : State) : Except Stop State :=
  let c := s.me.readC a.rs1
  .ok (s.putX latCap a.rd (BitVec.ofNat 64 ((decide (c.otype ≠ 0)).toNat * 2 + c.tag.toNat)))

/-- One span lies within another; an empty span lies within any. -/
def spanWithin (inner outer : Option (Int × Int)) : Bool :=
  match inner, outer with
  | none, _ => true
  | some _, none => false
  | some i, some o => decide (o.1 ≤ i.1) && decide (i.2 ≤ o.2)

/-- CSUBSET's test (R177): `d` lies within `c`. -/
def capWithin (c d : Cap) : Bool :=
  c.tag && d.tag && decide (c.otype = 0) && decide (d.otype = 0) && decide (c.objid = d.objid) && decide (c.gen = d.gen)
    && decide (c.kind = d.kind) && decide (d.perms &&& ~~~c.perms = 0) && decide (d.reach ≤ c.reach)
    && spanWithin (span d) (span c)

/-- CSUBSET. -/
def effCsubset (a : RArgs) (s : State) : Except Stop State :=
  .ok (s.putX latCap a.rd (flagWord (capWithin (s.me.readC a.rs1) (s.me.readC a.rs2))))
/-- CEQ. -/
def effCeq (a : RArgs) (s : State) : Except Stop State :=
  .ok (s.putX latCap a.rd (flagWord (decide (s.me.readC a.rs1 = s.me.readC a.rs2))))

/-! Sealing (R178, R179). -/

/-- OTYPE replaced. -/
def Cap.withOtype (c : Cap) (t : Nat) : Cap := c.setField 115 12 t

/-- The checks that CBIND and CUNBIND share. -/
def checkKey (v k : Cap) (want : BitVec 14) (a : RArgs) : Except Stop Unit := do
  need v.tag .capTag 0 a.rs1
  need k.tag .capTag 0 a.rs2
  need k.isTypeKey .capFormat k.word1 a.rs2
  need (decide (want &&& ~~~k.perms = 0)) .capPerm (want.setWidth 64) a.rs2
  need (!v.isTypeKey) .capSeal (BitVec.ofNat 64 v.otype) a.rs1

/-- CBIND. -/
def effCbind (a : RArgs) (s : State) : Except Stop State := do
  let v := s.me.readC a.rs1
  let k := s.me.readC a.rs2
  checkKey v k permBIND a
  need (decide (v.otype = 0)) .capSeal (BitVec.ofNat 64 v.otype) a.rs1
  .ok (s.putC 0 a.rd (v.withOtype k.otype))

/-- CUNBIND. -/
def effCunbind (a : RArgs) (s : State) : Except Stop State := do
  let v := s.me.readC a.rs1
  let k := s.me.readC a.rs2
  checkKey v k permUNBIND a
  need (decide (v.otype = k.otype)) .capSeal (BitVec.ofNat 64 v.otype) a.rs1
  .ok (s.putC 0 a.rd (v.withOtype 0))

/-- The type key of a type (R178, R179). -/
def typeKey (t : Nat) : Cap :=
  { tag := true,
    bits := BitVec.ofNat 512 (0xFFFFF * 2 ^ 64 + fmtCAP * 2 ^ 87 + 0xC00 * 2 ^ 99 + 3 * 2 ^ 113 + t % 4096 * 2 ^ 115) }

/-- PCC holds SYS. -/
def Strand.sys (t : Strand) : Bool := t.pcc.has 13

/-- CKEY, once privileged: a type of 0 or above 4,095 is ILLEGAL with the instruction word. -/
def effCkey (a : RArgs) (s : State) : Except Stop State := do
  let t := (s.me.readX a.rs1).toNat
  need (decide (t ≠ 0) && decide (t ≤ 4095)) .illegal (BitVec.ofNat 64 (encR 0x19 8 a)) 0
  .ok (s.putC 0 a.rd (typeKey t))

/-! Compartment calls (R180 to R184). -/

/-- The checks of R181. -/
def checkCall (s : State) (ck cd : Cap) (a : RArgs) : Except Stop Unit := do
  need ck.tag .capTag 0 a.rs1
  need cd.tag .capTag 0 a.rs2
  need (decide (ck.otype ≠ 0) && decide (cd.otype = ck.otype)) .capSeal
    (BitVec.ofNat 64 (cd.otype * 2 ^ 16 + ck.otype)) (if ck.otype = 0 then a.rs1 else a.rs2)
  checkGen s s.myPart ck a.rs1
  checkGen s s.myPart cd a.rs2
  need (ck.has 5) .capPerm 0x20 a.rs1
  need (codeShape ck) .capFormat ck.word1 a.rs1
  need (decide (s.me.frames.length < 32)) .tstack 32 0

/-- The registers that a compartment switch clears (R182, R183). -/
def Strand.wipe (t : Strand) : Strand :=
  { t with
    x := skeep (fun n => decide (10 ≤ n) && decide (n ≤ 17)) t.x
    c := skeep (fun n => decide (1 ≤ n) && decide (n ≤ 8)) t.c
    emptyX := t.emptyX &&& 0x0003FC00#32
    emptyC := t.emptyC &&& 0x000001FE#32
    zor := BitVec.allOnes 32
    p := []
    recipes := []
    ties := []
    dropX := 0
    dropV := 0 }

/-- CCALL. -/
def effCcall (a : RArgs) (s : State) : Except Stop State := do
  let t := s.me
  let ck := t.readC a.rs1
  let cd := t.readC a.rs2
  checkCall s ck cd a
  let f : Frame := { pcc := t.pcc, retoff := t.pc + 4, c30 := t.readC 30, c31 := t.readC 31, repsave := 0, trap := false }
  .ok (s.setMe { (t.wipe.setC 31 cd.unsealed) with frames := f :: t.frames, pcc := ck.unsealed, pc := 0 })

/-- CRET: a trap frame on top raises TSTACK with TVAL 0 (R220). -/
def effCret (_a : RArgs) (s : State) : Except Stop State :=
  let t := s.me
  match t.frames with
  | [] => fault .tstack 0 0
  | f :: rest =>
    if f.trap then fault .tstack 0 0
    else .ok (s.setMe { ((t.wipe.setC 30 f.c30).setC 31 f.c31) with frames := rest, pcc := f.pcc, pc := f.retoff })

end Sys2Proof.Machine
end

