-- ==== Sys2Proof/Machine/Control.lean ====
section
/-! DEFINITION. Branches, jumps and the plain system instructions (R100 to R112, R167, R222). Each of these sets the pc itself. -/

namespace Sys2Proof.Machine

/-- The pc moved to offset `t` of the current PCC. -/
def State.goto (s : State) (t : Int) : State := s.setMe { s.me with pc := t }

/-- R101: a target in the current PCC lies in bounds. -/
def checkTarget (pcc : Cap) (t : Int) : Except Stop Unit :=
  need (decide (0 ≤ t) && decide (t + 2 ≤ pcc.extent 0)) .capBound (boundRecord 15 t) 0

/-- A transfer within the current PCC. -/
def transfer (t : Int) (s : State) : Except Stop State := do
  checkTarget s.me.pcc t
  .ok (s.goto t)

/-- A branch by `off` halfwords when the condition holds, else past it. -/
def branch (taken : Bool) (off : BitVec 10) (s : State) : Except Stop State :=
  if taken then transfer (s.me.pc + 2 * off.toInt) s else .ok (s.goto (s.me.pc + 4))

/-- A branch on two x registers. -/
def effBr (test : Word → Word → Bool) (a : SArgs) (s : State) : Except Stop State :=
  branch (test (s.me.readX a.rs1) (s.me.readX a.rs2)) a.imm s

/-- BEQ. -/
def effBeq (a : SArgs) := effBr (fun x y => x == y) a
/-- BNE. -/
def effBne (a : SArgs) := effBr (fun x y => x != y) a
/-- BLT. -/
def effBlt (a : SArgs) := effBr BitVec.slt a
/-- BGE. -/
def effBge (a : SArgs) := effBr (fun x y => !(x.slt y)) a
/-- BLTN. -/
def effBltn (a : SArgs) := effBr BitVec.ult a
/-- BGEN. -/
def effBgen (a : SArgs) := effBr (fun x y => !(x.ult y)) a
/-- BPANY (R167). -/
def effBpany (a : SArgs) (s : State) : Except Stop State := branch (decide (s.me.readP a.rs1 ≠ 0)) a.imm s
/-- BPNONE. -/
def effBpnone (a : SArgs) (s : State) : Except Stop State := branch (decide (s.me.readP a.rs1 = 0)) a.imm s

/-- The link: the offset of the next instruction in the PCC of the call. -/
def Strand.link (t : Strand) : Word := BitVec.ofInt 64 (t.pc + 4)

/-- JAL (R102): the link goes to x1. -/
def effJal (a : JArgs) (s : State) : Except Stop State := do
  let t := s.me.pc + 2 * a.off.toInt
  checkTarget s.me.pcc t
  .ok ((s.putX 0 1 s.me.link).goto t)

/-- The checks on a capability that becomes PCC by JALC (R103): checks 1 to 6 with need EX, a code capability at check 5. -/
def execCheck (s : State) (c : Cap) (reg : Nat) (t : Int) : Except Stop Unit := do
  check15 s c reg permEX (byteRun c && codeShape c)
  one (boundBytes c t 2 reg)

/-- JALC (R103). -/
def effJalc (a : IArgs) (s : State) : Except Stop State := do
  let t := (s.me.readX a.rd).toInt + 2 * a.imm.toInt
  let target := if a.rs1.val = 0 then s.me.pcc else s.me.readC a.rs1
  if a.rs1.val = 0 then checkTarget s.me.pcc t else execCheck s target a.rs1 t
  need (decide (t % 2 = 0)) .align (BitVec.ofInt 64 (target.base + t)) a.rs1
  let s := s.putX 0 a.rd s.me.link
  .ok (s.setMe { s.me with pcc := target, pc := t })

/-- ECALL (R110). -/
def effEcall (a : IArgs) (_s : State) : Except Stop State := fault .ecall (a.imm.setWidth 64) 0
/-- EBREAK. -/
def effEbreak (a : IArgs) (_s : State) : Except Stop State := fault .ebreak (a.imm.setWidth 64) 0
/-- NOP (R111). -/
def effNop (_a : IArgs) (s : State) : Except Stop State := .ok s
/-- The end-of-kernel marker (R55). -/
def effEndOfKernel (_s : State) : Except Stop State := fault .illegal 0 0

/-- TRET, once privileged (R112, R222). -/
def effTret (a : IArgs) (s : State) : Except Stop State := do
  need (decide (0 < s.me.hdepth)) .illegal (BitVec.ofNat 64 (encI 0x3F 4 a)) 0
  match s.me.frames with
  | [] => fault .tstack 0 0
  | f :: rest => if f.trap then .ok (s.setMe (s.me.tret f rest)) else fault .tstack 0 0

end Sys2Proof.Machine
end

