-- ==== Sys2Proof/Machine/Bodies.lean ====
section
/-! DEFINITION. What the issue of an instruction needs to know beside its effect: the registers it names (R63 to R66, R68, R144,
R212), its latency (Table 2.2), its stall count (R61), and which of its fields REP may step (R71). One body for each instruction of
the majors that REP or a recipe admits (R71, R208). -/

namespace Sys2Proof.Machine

/-- An instruction as the issue logic sees it. A register field that REP may step is given with its highest value. -/
structure Body where
  reads : List RegRef
  /-- The register that a synchronised read empties. -/
  sync : Option RegRef := none
  /-- Registers written in part or passed on, which are rebuilt when dropped but not waited for when empty. -/
  rebuilds : List RegRef := []
  writes : List RegRef := []
  /-- Fixed latency, 0 for a variable one. -/
  lat : Nat := 0
  sc : Fin 4 := 0
  len : Nat := 4
  /-- The effect sets the pc itself. -/
  jumps : Bool := false
  /-- The checks of R75, items 4 to 6, that the word alone does not decide. -/
  pre : State → Except Stop Unit := fun _ => .ok ()
  /-- Reads of registers that operand values name, made before a synchronised read or a write changes any register (R24, R212). -/
  late : State → Except Stop State := fun s => .ok s
  fd : Option (Nat × Nat) := none
  f1 : Option (Nat × Nat) := none
  f2 : Option (Nat × Nat) := none
  /-- The effect, given what REP adds to an offset or index (R70). -/
  eff : Int → State → Except Stop State

/-- Register `n` of a class. -/
def rx (n : Nat) : RegRef := { cls := .x, num := n }
/-- c register. -/
def rc (n : Nat) : RegRef := { cls := .c, num := n }
/-- v register. -/
def rv (n : Nat) : RegRef := { cls := .v, num := n }
/-- p register. -/
def rp (n : Nat) : RegRef := { cls := .p, num := n }

/-- A steppable register field of 5 bits. -/
def field5 (r : Reg) : Option (Nat × Nat) := some (r.val, 31)
/-- A steppable predicate field, limited by R58. -/
def field3 (r : Nat) : Option (Nat × Nat) := some (r, 7)

/-- Format R with sources rs1 and rs2 and destination rd of the classes given. -/
def bodyR2 (cd c1 c2 : RegCls) (lat : Nat) (a : RArgs) (eff : State → Except Stop State) : Body :=
  { reads := [{ cls := c1, num := a.rs1 }, { cls := c2, num := a.rs2 }],
    sync := if a.sr then some { cls := c1, num := a.rs1 } else none,
    writes := [{ cls := cd, num := a.rd }], lat := lat, sc := a.sc,
    fd := field5 a.rd, f1 := field5 a.rs1, f2 := field5 a.rs2, eff := fun _ => eff }

/-- Format R with source rs1 and destination rd. -/
def bodyR1 (cd c1 : RegCls) (lat : Nat) (a : RArgs) (eff : State → Except Stop State) : Body :=
  { bodyR2 cd c1 c1 lat a eff with reads := [{ cls := c1, num := a.rs1 }], f2 := none }

/-- Format I arithmetic. -/
def bodyI (a : IArgs) (eff : State → Except Stop State) : Body :=
  { reads := [rx a.rs1], writes := [rx a.rd], lat := latAlu, sc := a.sc, fd := field5 a.rd, f1 := field5 a.rs1,
    eff := fun _ => eff }

/-- Scalar floating point with two sources. -/
def bodyF2 (lat : Nat) (a : FArgs) (eff : State → Except Stop State) : Body :=
  { reads := [rx a.rs1, rx a.rs2], sync := if a.sr then some (rx a.rs1) else none, writes := [rx a.rd], lat := lat,
    sc := a.sc, fd := field5 a.rd, f1 := field5 a.rs1, f2 := field5 a.rs2, eff := fun _ => eff }

/-- A byte-mode load. -/
def bodyLoad (a : IArgs) (eff : Int → State → Except Stop State) : Body :=
  { reads := [rc a.rs1], writes := [rx a.rd], sc := a.sc, fd := field5 a.rd, f1 := field5 a.rs1, eff := eff }

/-- A byte-mode store. -/
def bodyStore (a : SArgs) (eff : Int → State → Except Stop State) : Body :=
  { reads := [rc a.rs1, rx a.rs2], sc := a.sc, f1 := field5 a.rs1, f2 := field5 a.rs2, eff := eff }

/-- A merging vector operation with sources vs1 and vs2 (R144). -/
def bodyV2 (lat : Nat) (a : VArgs) (eff : State → Except Stop State) : Body :=
  { reads := [rv a.vs1, rv a.vs2, rp a.pg], rebuilds := [rv a.vd], writes := [rv a.vd], lat := lat, sc := a.sc,
    fd := field5 a.vd, f1 := field5 a.vs1, f2 := field5 a.vs2, eff := fun _ => eff }

/-- The same where f2 selects the instruction. -/
def bodyVf (a : VfArgs) (eff : State → Except Stop State) : Body :=
  { reads := [rv a.vs1, rv a.vs2, rp a.pg], rebuilds := [rv a.vd], writes := [rv a.vd], lat := latVec, sc := a.sc,
    fd := field5 a.vd, f1 := field5 a.vs1, f2 := field5 a.vs2, eff := fun _ => eff }

/-- A merging vector operation with the one source vs1. -/
def bodyV1 (lat : Nat) (a : VuArgs) (eff : State → Except Stop State) : Body :=
  { reads := [rv a.vs1, rp a.pg], rebuilds := [rv a.vd], writes := [rv a.vd], lat := lat, sc := a.sc,
    fd := field5 a.vd, f1 := field5 a.vs1, eff := fun _ => eff }

/-- A vector load or store: cs in vs1, an index register in vs2. -/
def bodyVm (a : VfArgs) (index : List RegRef) (store : Bool) (eff : Int → State → Except Stop State) : Body :=
  { reads := rc a.vs1 :: index ++ (if store then [rv a.vd] else []) ++ [rp a.pg],
    rebuilds := if store then [] else [rv a.vd], writes := if store then [] else [rv a.vd], sc := a.sc,
    fd := field5 a.vd, f1 := field5 a.vs1, f2 := field5 a.vs2, eff := eff }

/-- An operation on predicates. -/
def bodyP (a : VpArgs) (reads : List RegRef) (dest : RegRef) (fd f1 f2 : Option (Nat × Nat))
    (eff : State → Except Stop State) : Body :=
  { reads := reads, writes := [dest], lat := latPred, sc := a.sc, fd := fd, f1 := f1, f2 := f2, eff := fun _ => eff }

/-- ADD. -/
def bodyAdd (a : RArgs) : Body := bodyR2 .x .x .x latAlu a (effAdd a)
/-- SUB. -/
def bodySub (a : RArgs) : Body := bodyR2 .x .x .x latAlu a (effSub a)
/-- AND. -/
def bodyAnd (a : RArgs) : Body := bodyR2 .x .x .x latAlu a (effAnd a)
/-- OR. -/
def bodyOr (a : RArgs) : Body := bodyR2 .x .x .x latAlu a (effOr a)
/-- XOR. -/
def bodyXor (a : RArgs) : Body := bodyR2 .x .x .x latAlu a (effXor a)
/-- SLL. -/
def bodySll (a : RArgs) : Body := bodyR2 .x .x .x latAlu a (effSll a)
/-- SRL. -/
def bodySrl (a : RArgs) : Body := bodyR2 .x .x .x latAlu a (effSrl a)
/-- SRA. -/
def bodySra (a : RArgs) : Body := bodyR2 .x .x .x latAlu a (effSra a)
/-- ROL. -/
def bodyRol (a : RArgs) : Body := bodyR2 .x .x .x latAlu a (effRol a)
/-- ROR. -/
def bodyRor (a : RArgs) : Body := bodyR2 .x .x .x latAlu a (effRor a)
/-- SLT. -/
def bodySlt (a : RArgs) : Body := bodyR2 .x .x .x latAlu a (effSlt a)
/-- SLTN. -/
def bodySltn (a : RArgs) : Body := bodyR2 .x .x .x latAlu a (effSltn a)
/-- MIN. -/
def bodyMin (a : RArgs) : Body := bodyR2 .x .x .x latAlu a (effMin a)
/-- MAX. -/
def bodyMax (a : RArgs) : Body := bodyR2 .x .x .x latAlu a (effMax a)
/-- MINN. -/
def bodyMinn (a : RArgs) : Body := bodyR2 .x .x .x latAlu a (effMinn a)
/-- MAXN. -/
def bodyMaxn (a : RArgs) : Body := bodyR2 .x .x .x latAlu a (effMaxn a)
/-- MUL. -/
def bodyMul (a : RArgs) : Body := bodyR2 .x .x .x latMul a (effMul a)
/-- MULH. -/
def bodyMulh (a : RArgs) : Body := bodyR2 .x .x .x latMul a (effMulh a)
/-- MULHN. -/
def bodyMulhn (a : RArgs) : Body := bodyR2 .x .x .x latMul a (effMulhn a)
/-- DIV. -/
def bodyDiv (a : RArgs) : Body := bodyR2 .x .x .x 0 a (effDiv a)
/-- DIVN. -/
def bodyDivn (a : RArgs) : Body := bodyR2 .x .x .x 0 a (effDivn a)
/-- REM. -/
def bodyRem (a : RArgs) : Body := bodyR2 .x .x .x 0 a (effRem a)
/-- REMN. -/
def bodyRemn (a : RArgs) : Body := bodyR2 .x .x .x 0 a (effRemn a)
/-- CLZ. -/
def bodyClz (a : RArgs) : Body := bodyR1 .x .x latAlu a (effClz a)
/-- CTZ. -/
def bodyCtz (a : RArgs) : Body := bodyR1 .x .x latAlu a (effCtz a)
/-- POPC. -/
def bodyPopc (a : RArgs) : Body := bodyR1 .x .x latAlu a (effPopc a)
/-- ADDI. -/
def bodyAddi (a : IArgs) : Body := bodyI a (effAddi a)
/-- ANDI. -/
def bodyAndi (a : IArgs) : Body := bodyI a (effAndi a)
/-- ORI. -/
def bodyOri (a : IArgs) : Body := bodyI a (effOri a)
/-- XORI. -/
def bodyXori (a : IArgs) : Body := bodyI a (effXori a)
/-- SLLI. -/
def bodySlli (a : IArgs) : Body := bodyI a (effSlli a)
/-- SRLI. -/
def bodySrli (a : IArgs) : Body := bodyI a (effSrli a)
/-- SRAI. -/
def bodySrai (a : IArgs) : Body := bodyI a (effSrai a)
/-- SLTI. -/
def bodySlti (a : IArgs) : Body := bodyI a (effSlti a)
/-- LUI. -/
def bodyLui (a : UArgs) : Body := { reads := [], writes := [rx a.rd], lat := latAlu, sc := a.sc, fd := field5 a.rd, eff := fun _ => effLui a }
/-- FADD. -/
def bodyFadd (a : FArgs) : Body := bodyF2 latFp a (effFadd a)
/-- FSUB. -/
def bodyFsub (a : FArgs) : Body := bodyF2 latFp a (effFsub a)
/-- FMUL. -/
def bodyFmul (a : FArgs) : Body := bodyF2 latFp a (effFmul a)
/-- FFMA. -/
def bodyFfma (a : FArgs) : Body := { bodyF2 latFp a (effFfma a) with reads := [rx a.rs1, rx a.rs2, rx a.rd] }
/-- FDIV. -/
def bodyFdiv (a : FArgs) : Body := bodyF2 0 a (effFdiv a)
/-- FSQRT. -/
def bodyFsqrt (a : FArgs) : Body := { bodyF2 0 a (effFsqrt a) with reads := [rx a.rs1], f2 := none }
/-- FMIN. -/
def bodyFmin (a : FArgs) : Body := bodyF2 latFp a (effFmin a)
/-- FMAX. -/
def bodyFmax (a : FArgs) : Body := bodyF2 latFp a (effFmax a)
/-- FCMPEQ. -/
def bodyFcmpEq (a : FArgs) : Body := bodyF2 latFp a (effFcmpEq a)
/-- FCMPLT. -/
def bodyFcmpLt (a : FArgs) : Body := bodyF2 latFp a (effFcmpLt a)
/-- FCMPLE. -/
def bodyFcmpLe (a : FArgs) : Body := bodyF2 latFp a (effFcmpLe a)
/-- FCVT. -/
def bodyFcvt (a : CvtArgs) : Body := 
  { reads := [rx a.rs1], sync := if a.sr then some (rx a.rs1) else none, writes := [rx a.rd], lat := latFp, sc := a.sc,
    fd := field5 a.rd, f1 := field5 a.rs1, eff := fun _ => effFcvt a }
/-- LB. -/
def bodyLb (a : IArgs) : Body := bodyLoad a (effLb a)
/-- LH. -/
def bodyLh (a : IArgs) : Body := bodyLoad a (effLh a)
/-- LW. -/
def bodyLw (a : IArgs) : Body := bodyLoad a (effLw a)
/-- LD. -/
def bodyLd (a : IArgs) : Body := bodyLoad a (effLd a)
/-- LBN. -/
def bodyLbn (a : IArgs) : Body := bodyLoad a (effLbn a)
/-- LHN. -/
def bodyLhn (a : IArgs) : Body := bodyLoad a (effLhn a)
/-- LWN. -/
def bodyLwn (a : IArgs) : Body := bodyLoad a (effLwn a)
/-- SB. -/
def bodySb (a : SArgs) : Body := bodyStore a (effSb a)
/-- SH. -/
def bodySh (a : SArgs) : Body := bodyStore a (effSh a)
/-- SW. -/
def bodySw (a : SArgs) : Body := bodyStore a (effSw a)
/-- SD. -/
def bodySd (a : SArgs) : Body := bodyStore a (effSd a)
/-- LDE. -/
def bodyLde (a : MArgs) : Body := 
  { reads := [rc a.cs, rx a.xi, rx a.xj], writes := [rx a.rd], sc := a.sc, fd := field5 a.rd, f1 := field5 a.cs,
    f2 := field5 a.xi, eff := effLde a }
/-- STE. -/
def bodySte (a : MArgs) : Body := 
  { reads := [rc a.cs, rx a.xi, rx a.xj, rx a.rd], sc := a.sc, fd := field5 a.rd, f1 := field5 a.cs, f2 := field5 a.xi,
    eff := effSte a }
/-- LC. -/
def bodyLc (a : VfArgs) : Body := 
  { reads := [rc a.vs1, rx a.vs2], writes := [rc a.vd], sc := a.sc, fd := field5 a.vd, f1 := field5 a.vs1,
    f2 := field5 a.vs2, eff := effLc a }
/-- SC. -/
def bodySc (a : VfArgs) : Body := 
  { reads := [rc a.vs1, rx a.vs2, rc a.vd], sc := a.sc, fd := field5 a.vd, f1 := field5 a.vs1, f2 := field5 a.vs2,
    eff := effSc a }
/-- VLE. -/
def bodyVle (a : VfArgs) : Body := bodyVm a [rx a.vs2] false (effVle a)
/-- VSE. -/
def bodyVse (a : VfArgs) : Body := bodyVm a [rx a.vs2] true (effVse a)
/-- VLSE: a stepped xi leaves room for x[xi+1] (R71). -/
def bodyVlse (a : VfArgs) : Body := { bodyVm a [rx a.vs2, rx (a.vs2 + 1)] false (effVlse a) with f2 := some (a.vs2, 30) }
/-- VLXE. -/
def bodyVlxe (a : VfArgs) : Body := bodyVm a [rv a.vs2] false (fun _ => effVlxe a)
/-- VSXE. -/
def bodyVsxe (a : VfArgs) : Body := bodyVm a [rv a.vs2] true (fun _ => effVsxe a)
/-- CSLICE. -/
def bodyCslice (a : RArgs) : Body := bodyR2 .c .c .x latCap a (effCslice a)
/-- CSTEP. -/
def bodyCstep (a : RArgs) : Body := bodyR2 .c .c .x latCap a (effCstep a)
/-- CFLIP. -/
def bodyCflip (a : RArgs) : Body := bodyR2 .c .c .x latCap a (effCflip a)
/-- CPERM. -/
def bodyCperm (a : RArgs) : Body := bodyR2 .c .c .x latCap a (effCperm a)
/-- CSPLIT. -/
def bodyCsplit (a : RArgs) : Body := bodyR2 .c .c .x latCap a (effCsplit a)
/-- CMERGE. -/
def bodyCmerge (a : RArgs) : Body := bodyR2 .c .c .x latCap a (effCmerge a)
/-- CFIX. -/
def bodyCfix (a : RArgs) : Body := bodyR2 .c .c .x latCap a (effCfix a)
/-- CBCAST. -/
def bodyCbcast (a : RArgs) : Body := bodyR2 .c .c .x latCap a (effCbcast a)
/-- CANDP. -/
def bodyCandp (a : RArgs) : Body := bodyR2 .c .c .x latCap a (effCandp a)
/-- CREACH. -/
def bodyCreach (a : RArgs) : Body := bodyR2 .c .c .x latCap a (effCreach a)
/-- CRETAG. -/
def bodyCretag (a : RArgs) : Body := bodyR2 .c .c .x latCap a (effCretag a)
/-- CMOVE. -/
def bodyCmove (a : RArgs) : Body := bodyR1 .c .c latCap a (effCmove a)
/-- CCLEAR. -/
def bodyCclear (a : RArgs) : Body := bodyR1 .c .c latCap a (effCclear a)
/-- VADD. -/
def bodyVadd (a : VArgs) : Body := bodyV2 latVec a (effVadd a)
/-- VSUB. -/
def bodyVsub (a : VArgs) : Body := bodyV2 latVec a (effVsub a)
/-- VMUL. -/
def bodyVmul (a : VArgs) : Body := bodyV2 latVec a (effVmul a)
/-- VMIN. -/
def bodyVmin (a : VArgs) : Body := bodyV2 latVec a (effVmin a)
/-- VMAX. -/
def bodyVmax (a : VArgs) : Body := bodyV2 latVec a (effVmax a)
/-- VDIV. -/
def bodyVdiv (a : VArgs) : Body := bodyV2 0 a (effVdiv a)
/-- VFMA. -/
def bodyVfma (a : VArgs) : Body := { bodyV2 latVec a (effVfma a) with reads := [rv a.vs1, rv a.vs2, rv a.vd, rp a.pg] }
/-- VFMS. -/
def bodyVfms (a : VArgs) : Body := { bodyV2 latVec a (effVfms a) with reads := [rv a.vs1, rv a.vs2, rv a.vd, rp a.pg] }
/-- VDOT. -/
def bodyVdot (a : VArgs) : Body := { bodyV2 latVec a (effVdot a) with reads := [rv a.vs1, rv a.vs2, rv a.vd, rp a.pg] }
/-- VSQRT. -/
def bodyVsqrt (a : VuArgs) : Body := bodyV1 0 a (effVsqrt a)
/-- VRSQ. -/
def bodyVrsq (a : VuArgs) : Body := bodyV1 0 a (effVrsq a)
/-- VRCP. -/
def bodyVrcp (a : VuArgs) : Body := bodyV1 0 a (effVrcp a)
/-- VABS. -/
def bodyVabs (a : VuArgs) : Body := bodyV1 latVec a (effVabs a)
/-- VNEG. -/
def bodyVneg (a : VuArgs) : Body := bodyV1 latVec a (effVneg a)
/-- VEXP. -/
def bodyVexp (a : VuArgs) : Body := bodyV1 latVecLong a (effVexp a)
/-- VEXP2. -/
def bodyVexp2 (a : VuArgs) : Body := bodyV1 latVecLong a (effVexp2 a)
/-- VLOG2. -/
def bodyVlog2 (a : VuArgs) : Body := bodyV1 latVecLong a (effVlog2 a)
/-- VSLL. -/
def bodyVsll (a : VfArgs) : Body := bodyVf a (effVsll a)
/-- VSRL. -/
def bodyVsrl (a : VfArgs) : Body := bodyVf a (effVsrl a)
/-- VSRA. -/
def bodyVsra (a : VfArgs) : Body := bodyVf a (effVsra a)
/-- VAND. -/
def bodyVand (a : VfArgs) : Body := bodyVf a (effVand a)
/-- VOR. -/
def bodyVor (a : VfArgs) : Body := bodyVf a (effVor a)
/-- VXOR. -/
def bodyVxor (a : VfArgs) : Body := bodyVf a (effVxor a)
/-- VSEL. -/
def bodyVsel (a : VfArgs) : Body := { bodyVf a (effVsel a) with rebuilds := [] }
/-- VCVT. -/
def bodyVcvt (a : VArgs) : Body := { bodyV2 latCvt a (effVcvt a) with reads := [rv a.vs1, rp a.pg], f2 := none }
/-- VCVTSAT. -/
def bodyVcvtSat (a : VArgs) : Body := { bodyV2 latCvt a (effVcvtSat a) with reads := [rv a.vs1, rp a.pg], f2 := none }
/-- VPERM. -/
def bodyVperm (a : VArgs) : Body := bodyV2 latVec a (effVperm a)
/-- VSLIDE. -/
def bodyVslide (a : VuArgs) : Body := { bodyV1 latVec a (effVslide a) with reads := [rx a.vs1, rv a.vd, rp a.pg] }
/-- VBCAST. -/
def bodyVbcast (a : VuArgs) : Body := { bodyV1 latVec a (effVbcast a) with reads := [rx a.vs1, rp a.pg] }
/-- VMOVX. -/
def bodyVmovx (a : VuArgs) : Body := { bodyV1 latVec a (effVmovx a) with rebuilds := [], writes := [rx a.vd] }
/-- VIOTA. -/
def bodyViota (a : VuArgs) : Body := { bodyV1 latVec a (effViota a) with reads := [rp a.pg], f1 := none }
/-- VCMP. -/
def bodyVcmp (a : VArgs) : Body := 
  { bodyV2 latVec a (effVcmp a) with rebuilds := [], writes := [rp (a.vd.val % 8)], fd := field3 (a.vd.val % 8) }
/-- VRED. -/
def bodyVred (a : VArgs) : Body := { bodyV2 latVecLong a (effVred a) with reads := [rv a.vs1, rp a.pg], rebuilds := [], f2 := none }
/-- PAND. -/
def bodyPand (a : VpArgs) : Body := 
  bodyP a [rp a.vs1, rp a.vs2] (rp a.vd) (field3 a.vd) (field3 a.vs1) (field3 a.vs2) (effPand a)
/-- POR. -/
def bodyPor (a : VpArgs) : Body := 
  bodyP a [rp a.vs1, rp a.vs2] (rp a.vd) (field3 a.vd) (field3 a.vs1) (field3 a.vs2) (effPor a)
/-- PXOR. -/
def bodyPxor (a : VpArgs) : Body := 
  bodyP a [rp a.vs1, rp a.vs2] (rp a.vd) (field3 a.vd) (field3 a.vs1) (field3 a.vs2) (effPxor a)
/-- PNOT. -/
def bodyPnot (a : VpArgs) : Body := bodyP a [rp a.vs1] (rp a.vd) (field3 a.vd) (field3 a.vs1) none (effPnot a)
/-- PFIRST. -/
def bodyPfirst (a : VpArgs) : Body := bodyP a [rp a.vs1] (rp a.vd) (field3 a.vd) (field3 a.vs1) none (effPfirst a)
/-- PCNT. -/
def bodyPcnt (a : VpArgs) : Body := bodyP a [rp a.vs1] (rx a.vd) (field5 a.vd) (field3 a.vs1) none (effPcnt a)
/-- VWHILE. -/
def bodyVwhile (a : VpArgs) : Body := bodyP a [rx a.vs1, rx a.vs2] (rp a.vd) (field3 a.vd) (field5 a.vs1) (field5 a.vs2) (effVwhile a)

/-- The lane operation of R74 as its 32-bit equivalent (Table 2.5). -/
def laneEquiv (op : Fin 16) (a : C16Args) : Instr :=
  let pg : Fin 8 := if a.p1 then 1 else 0
  let two (f2 : Fin 4) : VArgs := { vd := a.vd, vs1 := a.vd, vs2 := a.vs2, pg := pg, f2 := f2, h := 0, sc := 0 }
  let bits (x : Reg) : VfArgs := { vd := a.vd, vs1 := x, vs2 := a.vs2, pg := pg, h := 0, sc := 0 }
  let one : VuArgs := { vd := a.vd, vs1 := a.vs2, pg := pg, f2 := 0, h := 0, sc := 0 }
  match op.val with
  | 0 => .vadd (two 0)
  | 1 => .vsub (two 0)
  | 2 => .vmul (two 0)
  | 3 => .vmin (two 0)
  | 4 => .vmax (two 0)
  | 5 => .vadd (two 3)
  | 6 => .vsub (two 3)
  | 7 => .vand (bits a.vd)
  | 8 => .vor (bits a.vd)
  | 9 => .vxor (bits a.vd)
  | 10 => .vor (bits a.vs2)
  | 11 => .vneg one
  | 12 => .vabs one
  | 13 => .vfma { vd := a.vd, vs1 := a.vs2, vs2 := 0, pg := pg, f2 := 0, h := 0, sc := 0 }
  | 14 => .vsll (bits a.vd)
  | _ => .vcvt { vd := a.vd, vs1 := a.vs2, vs2 := 5, pg := pg, f2 := 0, h := 0, sc := 0 }

/-- The body of an instruction of the majors that REP or a recipe admits; none for every other. -/
def bodyOf (i : Instr) : Option Body :=
  match i with
  | .add a => some (bodyAdd a)
  | .sub a => some (bodySub a)
  | .and a => some (bodyAnd a)
  | .or a => some (bodyOr a)
  | .xor a => some (bodyXor a)
  | .sll a => some (bodySll a)
  | .srl a => some (bodySrl a)
  | .sra a => some (bodySra a)
  | .rol a => some (bodyRol a)
  | .ror a => some (bodyRor a)
  | .slt a => some (bodySlt a)
  | .sltn a => some (bodySltn a)
  | .min a => some (bodyMin a)
  | .max a => some (bodyMax a)
  | .minn a => some (bodyMinn a)
  | .maxn a => some (bodyMaxn a)
  | .mul a => some (bodyMul a)
  | .mulh a => some (bodyMulh a)
  | .mulhn a => some (bodyMulhn a)
  | .div a => some (bodyDiv a)
  | .divn a => some (bodyDivn a)
  | .rem a => some (bodyRem a)
  | .remn a => some (bodyRemn a)
  | .clz a => some (bodyClz a)
  | .ctz a => some (bodyCtz a)
  | .popc a => some (bodyPopc a)
  | .addi a => some (bodyAddi a)
  | .andi a => some (bodyAndi a)
  | .ori a => some (bodyOri a)
  | .xori a => some (bodyXori a)
  | .slli a => some (bodySlli a)
  | .srli a => some (bodySrli a)
  | .srai a => some (bodySrai a)
  | .slti a => some (bodySlti a)
  | .lui a => some (bodyLui a)
  | .fadd a => some (bodyFadd a)
  | .fsub a => some (bodyFsub a)
  | .fmul a => some (bodyFmul a)
  | .ffma a => some (bodyFfma a)
  | .fdiv a => some (bodyFdiv a)
  | .fsqrt a => some (bodyFsqrt a)
  | .fmin a => some (bodyFmin a)
  | .fmax a => some (bodyFmax a)
  | .fcmpEq a => some (bodyFcmpEq a)
  | .fcmpLt a => some (bodyFcmpLt a)
  | .fcmpLe a => some (bodyFcmpLe a)
  | .fcvt a => some (bodyFcvt a)
  | .lb a => some (bodyLb a)
  | .lh a => some (bodyLh a)
  | .lw a => some (bodyLw a)
  | .ld a => some (bodyLd a)
  | .lbn a => some (bodyLbn a)
  | .lhn a => some (bodyLhn a)
  | .lwn a => some (bodyLwn a)
  | .sb a => some (bodySb a)
  | .sh a => some (bodySh a)
  | .sw a => some (bodySw a)
  | .sd a => some (bodySd a)
  | .lde a => some (bodyLde a)
  | .ste a => some (bodySte a)
  | .lc a => some (bodyLc a)
  | .sc a => some (bodySc a)
  | .vle a => some (bodyVle a)
  | .vse a => some (bodyVse a)
  | .vlse a => some (bodyVlse a)
  | .vlxe a => some (bodyVlxe a)
  | .vsxe a => some (bodyVsxe a)
  | .cslice a => some (bodyCslice a)
  | .cstep a => some (bodyCstep a)
  | .cflip a => some (bodyCflip a)
  | .cperm a => some (bodyCperm a)
  | .csplit a => some (bodyCsplit a)
  | .cmerge a => some (bodyCmerge a)
  | .cfix a => some (bodyCfix a)
  | .cbcast a => some (bodyCbcast a)
  | .candp a => some (bodyCandp a)
  | .creach a => some (bodyCreach a)
  | .cretag a => some (bodyCretag a)
  | .cmove a => some (bodyCmove a)
  | .cclear a => some (bodyCclear a)
  | .vadd a => some (bodyVadd a)
  | .vsub a => some (bodyVsub a)
  | .vmul a => some (bodyVmul a)
  | .vmin a => some (bodyVmin a)
  | .vmax a => some (bodyVmax a)
  | .vdiv a => some (bodyVdiv a)
  | .vfma a => some (bodyVfma a)
  | .vfms a => some (bodyVfms a)
  | .vdot a => some (bodyVdot a)
  | .vsqrt a => some (bodyVsqrt a)
  | .vrsq a => some (bodyVrsq a)
  | .vrcp a => some (bodyVrcp a)
  | .vabs a => some (bodyVabs a)
  | .vneg a => some (bodyVneg a)
  | .vexp a => some (bodyVexp a)
  | .vexp2 a => some (bodyVexp2 a)
  | .vlog2 a => some (bodyVlog2 a)
  | .vsll a => some (bodyVsll a)
  | .vsrl a => some (bodyVsrl a)
  | .vsra a => some (bodyVsra a)
  | .vand a => some (bodyVand a)
  | .vor a => some (bodyVor a)
  | .vxor a => some (bodyVxor a)
  | .vsel a => some (bodyVsel a)
  | .vcvt a => some (bodyVcvt a)
  | .vcvtSat a => some (bodyVcvtSat a)
  | .vperm a => some (bodyVperm a)
  | .vslide a => some (bodyVslide a)
  | .vbcast a => some (bodyVbcast a)
  | .vmovx a => some (bodyVmovx a)
  | .viota a => some (bodyViota a)
  | .vcmp a => some (bodyVcmp a)
  | .vred a => some (bodyVred a)
  | .pand a => some (bodyPand a)
  | .por a => some (bodyPor a)
  | .pxor a => some (bodyPxor a)
  | .pnot a => some (bodyPnot a)
  | .pfirst a => some (bodyPfirst a)
  | .pcnt a => some (bodyPcnt a)
  | .vwhile a => some (bodyVwhile a)
  | _ => none

/-- The body of a lane operation: two bytes long; the vd field is also the first source, so REP steps vd and vs2. -/
def laneBody (op : Fin 16) (a : C16Args) : Body :=
  match bodyOf (laneEquiv op a) with
  | some b => { b with len := 2, fd := field5 a.vd, f1 := none, f2 := field5 a.vs2 }
  | none => { reads := [], len := 2, eff := fun _ s => .ok s }

/-- The body of what decoding found. -/
def fetchedBody (f : Fetched) : Option Body :=
  match f with
  | .whole i => bodyOf i
  | .lane op a => some (laneBody op a)

end Sys2Proof.Machine
end

