-- ==== Sys2Proof/Machine/Fetch.lean ====
section
/-! DEFINITION. Fetching an instruction (R54, R85, R86): its bytes through PCC and the page table. -/

namespace Sys2Proof.Machine

/-- How an instruction fetch stands to alignment, translation and banks: it is a byte-mode read of the strand. -/
def accFetch (s : State) : Acc := { use := useRead, align := 1, byteMode := true, strand := some s.cur, sealedOk := false }

/-- The byte at an offset of PCC, and where it lies; TCAP is 0. -/
def fetchByte (s : State) (off : Int) : Except Stop (Byte × Elem) := do
  let e ← one (placed s (s.pidOf s.cur) s.me.pcc 0 (accFetch s) (s.me.pcc.base + off))
  .ok (s.byte e.pa, e)

/-- The halfword at an offset of PCC. -/
def fetchHalf (s : State) (off : Int) : Except Stop (List Byte × List Elem) := do
  let a ← fetchByte s off
  let b ← fetchByte s (off + 1)
  .ok ([a.1, b.1], [a.2, b.2])

/-- R86, check 2, for `len` bytes. -/
def fetchBound (pcc : Cap) (off : Int) (len : Nat) : Except Stop Unit :=
  need (decide (off % 2 = 0) && decide (0 ≤ off) && decide (off + len ≤ pcc.extent 0)) .capBound (boundRecord 15 off) 0

/-- The bytes of the instruction at an offset of PCC, 2 or 4 of them, and where they lie. -/
def fetchAt (s : State) (off : Int) : Except Stop (List Byte × List Elem) := do
  checkGen s s.myPart s.me.pcc 0
  fetchBound s.me.pcc off 2
  let h ← fetchHalf s off
  if (h.1.headD 0).getLsbD 0 = false then .ok h
  else
    fetchBound s.me.pcc off 4
    let k ← fetchHalf s (off + 2)
    .ok (h.1 ++ k.1, h.2 ++ k.2)

/-- The bytes of a fetch are read as a load reads them: Accessed bits, one access to each line (log 16). -/
def State.touchFetch (s : State) (es : List Elem) : State := s.touchAll es 1 false

/-- What was fetched, decoded (R75, items 1 to 4): the instruction and its length, or its trap. -/
def decodeFetched (bs : List Byte) : Except Stop (Fetched × Nat) :=
  match decode bs with
  | .ok f len => .ok (f, len)
  | .illegal w _ => fault .illegal (BitVec.ofNat 64 w) 0
  | .rzt w => fault .rzt (BitVec.ofNat 64 w) 0
  | .truncated => fault .illegal 0 0

/-- The word of fetched bytes. -/
def bytesWord (bs : List Byte) : Nat :=
  match bs with
  | [] => 0
  | b :: rest => b.toNat + 256 * bytesWord rest

end Sys2Proof.Machine
end

