-- ==== Sys2Proof/Machine/Replay.lean ====
section
/-! DEFINITION. Recompute recipes (R207 to R214): sources of a slot, ties, and the replay that rebuilds a dropped register. -/

namespace Sys2Proof.Machine

/-- A register is full to a reader: a dropped one and a v register marked zero-on-read read as full (R212, R18). -/
def Strand.isFull (t : Strand) (r : RegRef) : Bool :=
  match r.cls with
  | .x => !(t.emptyX.getLsbD r.num) || t.dropX.getLsbD r.num
  | .c => !(t.emptyC.getLsbD r.num)
  | .v => !(t.emptyV.getLsbD r.num) || t.dropV.getLsbD r.num || t.zor.getLsbD r.num
  | .p => true

/-- The registers of a list that an instruction parks on. -/
def Strand.empties (t : Strand) (rs : List RegRef) : List RegRef := rs.filter fun r => !(t.isFull r)

/-- A register is dropped. -/
def Strand.isDropped (t : Strand) (r : RegRef) : Bool :=
  match r.cls with
  | .x => t.dropX.getLsbD r.num
  | .v => t.dropV.getLsbD r.num
  | _ => false

/-- The key of a register in the table of ties; none for a class that cannot be tied. -/
def tieKey (r : RegRef) : Option Nat :=
  match r.cls with
  | .x => some r.num
  | .v => some (32 + r.num)
  | _ => none

/-- The register of a key. -/
def tieReg (k : Nat) : RegRef := if k < 32 then rx k else rv (k - 32)

/-- The slot a register is tied to, plus one; 0 for none. -/
def Strand.tieOf (t : Strand) (r : RegRef) : Nat :=
  match tieKey r with
  | some k => sget 0 t.ties k
  | none => 0

/-- The words of a slot. -/
def Strand.recipe (t : Strand) (slot : Nat) : List Nat := sget [] t.recipes slot

/-- The body of a recorded word. -/
def wordBody (w : Nat) : Option Body :=
  match decodeWord w with
  | .ok f _ => fetchedBody f
  | _ => none

/-- x0, c0 and p0, which are no sources (R209). -/
def RegRef.fixed (r : RegRef) : Bool := decide (r.num = 0) && decide (r.cls ≠ .v)

/-- The sources of a recipe (R209): registers read before any earlier instruction of it writes them. -/
def sourcesFrom (written : List RegRef) (ws : List Nat) : List RegRef :=
  match ws with
  | [] => []
  | w :: rest =>
    match wordBody w with
    | none => sourcesFrom written rest
    | some b => (b.reads.filter fun r => !r.fixed && !written.contains r) ++ sourcesFrom (written ++ b.writes) rest

/-- The sources of a slot. -/
def Strand.sources (t : Strand) (slot : Nat) : List RegRef := sourcesFrom [] (t.recipe slot)

/-- The destination of the last instruction of a recipe. -/
def recipeDest (ws : List Nat) : Option RegRef := (ws.getLast?.bind wordBody).bind fun b => b.writes.head?

/-- The registers tied to a slot. -/
def Strand.tiedTo (t : Strand) (slot : Nat) : List RegRef :=
  (t.ties.filter fun e => decide (e.2 = slot + 1)).map fun e => tieReg e.1

/-- Slots with a tied register that have the register as a source. -/
def Strand.slotsFrom (t : Strand) (r : RegRef) : List Nat :=
  (List.range 8).filter fun k => !(t.tiedTo k).isEmpty && (t.sources k).contains r

/-- A register untied; its drop mark goes with the tie. -/
def Strand.untie (t : Strand) (r : RegRef) : Strand :=
  match r.cls with
  | .x => { t with ties := sset 0 t.ties r.num 0, dropX := maskClear t.dropX r.num }
  | .v => { t with ties := sset 0 t.ties (32 + r.num) 0, dropV := maskClear t.dropV r.num }
  | _ => t

/-- A write to a register unties it, and every register tied to a slot that has it as a source (R213). -/
def Strand.noteWrite (t : Strand) (r : RegRef) : Strand :=
  if t.ties = [] then t
  else ((t.slotsFrom r).flatMap t.tiedTo).foldl Strand.untie (t.untie r)

/-- The value of a register. -/
def Strand.value (t : Strand) (r : RegRef) : RegVal :=
  match r.cls with
  | .x => .x (t.readX r.num)
  | .c => .c (t.readC r.num)
  | .v => .v (t.readV r.num)
  | .p => .p (t.readP r.num)

/-- The c register of a recipe load. -/
def loadReg (i : Instr) : Option Reg :=
  match i with
  | .lb a => some a.rs1
  | .lh a => some a.rs1
  | .lw a => some a.rs1
  | .ld a => some a.rs1
  | .lbn a => some a.rs1
  | .lhn a => some a.rs1
  | .lwn a => some a.rs1
  | .lde a => some a.cs
  | .vle a => some a.vs1
  | .vlse a => some a.vs1
  | .vlxe a => some a.vs1
  | _ => none

/-- ST, STC, LOCW, ATOM and SYNC, which a recipe load's capability may not hold (R209). -/
def recipeForbidden : BitVec 14 := 0x00DA

/-- Checks 1 to 3 of a recipe load, and R209's test in place of check 4. -/
def checkRecipeLoad (s : State) (c : Cap) (reg : Nat) : Except Stop Unit := do
  checkTagSeal c reg
  checkGen s s.myPart c reg
  let bad := (permLD &&& ~~~c.perms) ||| (c.perms &&& recipeForbidden)
  need (decide (bad = 0)) .capPerm (bad.setWidth 64) reg

/-- The test a recorded load makes before its ordinary checks; nothing for other instructions. -/
def checkRecorded (s : State) (f : Fetched) : Except Stop Unit :=
  match f with
  | .lane _ _ => .ok ()
  | .whole i =>
    match loadReg i with
    | some r => checkRecipeLoad s (s.me.readC r) r
    | none => .ok ()

/-- Registers handled in turn. -/
def eachReg (f : RegRef → State → Except Stop State) (rs : List RegRef) (s : State) : Except Stop State :=
  match rs with
  | [] => .ok s
  | r :: rest => do
    let s ← f r s
    eachReg f rest s

/-- One recorded instruction on the scratch registers; `rb` rebuilds a source that is itself dropped. -/
def replayOne (rb : RegRef → State → Except Stop State) (w : Nat) (s : State) : Except Stop State :=
  match decodeWord w with
  | .ok f _ =>
    match fetchedBody f with
    | some b => do
      let s ← eachReg rb b.reads s
      checkRecorded s f
      if b.reads.all s.me.isFull then
        let s ← b.eff 0 s
        .ok (s.setMe s.me.commitAll)
      else .error (.park (.empty (s.me.empties b.reads)))
    | none => .ok s
  | _ => .ok s

/-- Table 7.5. -/
def replayTval (t : TrapInfo) (index slot : Nat) : Word :=
  BitVec.ofNat 64 (t.cause.code.toNat * 2 ^ 16 + t.tcap.toNat % 32 * 2 ^ 8 + index * 2 ^ 3 + slot)

/-- The recorded instructions in turn; a fault is REPLAY (R214). -/
def replayFrom (rb : RegRef → State → Except Stop State) (slot index : Nat) (ws : List Nat) (s : State) :
    Except Stop State :=
  match ws with
  | [] => .ok s
  | w :: rest =>
    match replayOne rb w s with
    | .ok s' => replayFrom rb slot (index + 1) rest s'
    | .error (.trap t) => fault .replay (replayTval t index slot) t.tval.toNat
    | .error e => .error e

/-- A dropped register rebuilt from its slot (R209, R212): only that register of the strand changes. A replay may rebuild a source of
its own, nested as deep as there are slots. The private temporaries start as the strand's registers of the same numbers, so that the bytes a
merging instruction keeps of one that the recipe has not written are the strand's: the spec says nothing of them (DESIGN CHOICE, log 15). -/
def rebuildN (fuel : Nat) (r : RegRef) (s : State) : Except Stop State :=
  match fuel with
  | 0 => .ok s
  | k + 1 =>
    let t := s.me
    if !t.isDropped r then .ok s
    else
      let slot := t.tieOf r - 1
      let ws := t.recipe slot
      match recipeDest ws with
      | none => .ok s
      | some d => do
        let u ← replayFrom (rebuildN k) slot 0 ws (s.setMe { t with pend := [] })
        .ok (u.setMe (t.setReg r.num (u.me.value d)))

/-- A dropped register rebuilt. -/
def rebuild (r : RegRef) (s : State) : Except Stop State := rebuildN 8 r s

/-- Registers rebuilt in turn. -/
def rebuildAll (rs : List RegRef) (s : State) : Except Stop State := eachReg rebuild rs s

/-- The dropped registers that a write to a source of their slot is held for (R213). -/
def Strand.droppedBy (t : Strand) (r : RegRef) : List RegRef :=
  if t.dropX = 0 ∧ t.dropV = 0 then []
  else ((t.slotsFrom r).flatMap t.tiedTo).filter t.isDropped

/-- A register dropped (R211): its value is gone, and reads as a free value where a rule lets it be seen (log 15). -/
def State.drop (s : State) (n : Nat) (r : RegRef) : State :=
  let t := s.strand n
  match r.cls with
  | .x => { s.setStrand n { t with dropX := maskSet t.dropX r.num, x := sset 0 t.x r.num (Config.freeWord s.freeCtr) } with
            freeCtr := s.freeCtr + 1 }
  | .v =>
    let v := (List.range 16).foldl (fun acc k => acc + (Config.freeWord (s.freeCtr + k)).toNat * 2 ^ (64 * k)) 0
    { s.setStrand n { t with dropV := maskSet t.dropV r.num, v := sset 0 t.v r.num (BitVec.ofNat 1024 v) } with
      freeCtr := s.freeCtr + 16 }
  | _ => s

/-- RDROP's test (R211): the register is tied and is no source of a slot with a tied register. -/
def Strand.mayDrop (t : Strand) (r : RegRef) : Bool := decide (t.tieOf r ≠ 0) && (t.slotsFrom r).isEmpty

end Sys2Proof.Machine
end

