-- ==== Sys2Proof/Machine/Entry.lean ====
section
/-! DEFINITION. Taking a trap (R215, R220, R221): the one operation by which a strand enters its handler. -/

namespace Sys2Proof.Machine

/-- Trap entry writes c31 (R220): dropped registers of a slot that has it as a source are first rebuilt (R213). One whose replay faults or
waits stays dropped and tied (log 75). -/
def State.beforeEntry (s : State) (n : Nat) : State :=
  ((s.strand n).droppedBy (rc 31)).foldl (fun s r => match rebuild r { s with cur := n } with
    | .ok u => { u with cur := s.cur }
    | .error _ => s) s

/-- Registers tied to a slot that has c31 as a source are untied, those still dropped left. -/
def Strand.untieC31 (t : Strand) : Strand :=
  if t.ties = [] then t
  else (((t.slotsFrom (rc 31)).flatMap t.tiedTo).filter fun r => !(t.isDropped r)).foldl Strand.untie t

/-- The step of R220 on the strand: trap registers, the pushed frame, TREP, the TVEC pair. Results still on their way are in
place first (R148, R215). The strand is not ready in this cycle (R231). -/
def Strand.takeTrap (old : Strand) (p : Partition) (int : Bool) (code : BitVec 8) (tval tcap tepc : Word) : Strand :=
  let t := old.commitAll
  { (t.untieC31.setC 31 p.tvecData.unsealed) with
    tcause := tcauseWord int code
    tepc := tepc
    tval := tval
    tcap := tcap
    frames := { pcc := t.pcc, retoff := t.pc, c30 := t.readC 30, c31 := t.readC 31, repsave := t.trep, trap := true } :: t.frames
    trep := t.repdone
    repdone := 0
    rep := none
    pcc := p.tvecCode.unsealed
    pc := 0
    status := .running
    wait := .none }

/-- A failed trap entry (R221): the strand stops with nothing else of it changed; the monitor takes TSTACK, and a failure in the monitor
itself ends the partition. -/
def State.failTrap (s : State) (n : Nat) (code : BitVec 8) : State :=
  let s := s.setStrand n { s.strand n with status := .stopped, wait := .none }
  match s.pidOf n with
  | none => s
  | some pid =>
    let rec_ : Word := BitVec.ofNat 64 (code.toNat * 2 ^ 16 + n)
    if (s.part pid).pmon.toNat % 2 ^ 12 = n ∧ bitOf (s.part pid).pmon.toNat 13 = true
        ∧ bitOf (s.part pid).pmon.toNat 12 = false then
      s.terminate pid 3
    else s.toMonitor pid (mkEvent 6 0 .tstack rec_ 0) 2 (BitVec.ofNat 64 (code.toNat * 2 ^ 16 + s.cardNo * 2 ^ 12 + n))

/-- Trap entry (R220, R221) of strand `n`, with TEPC as given; `after` is what else an entry that succeeds changes of the strand. -/
def State.enterTrap (s : State) (n : Nat) (after : Strand → Strand) (int : Bool) (code : BitVec 8) (tval tcap tepc : Word) : State :=
  let p := match s.pidOf n with
    | some pid => s.part pid
    | none => Partition.reset
  if (s.strand n).frames.length < 32 ∧ tvecOk s p = true then
    let s := s.beforeEntry n
    s.setStrand n { after ((s.strand n).takeTrap p int code tval tcap tepc) with nextIssue := s.cycle + 1 }
  else s.failTrap n code

/-- The trap of the current instruction: TEPC is its address (R10); BSKIP is over for it (R223). A walk that came to it has read its entries
(R389). -/
def State.faultMe (s : State) (t : TrapInfo) : State :=
  (s.walkedTo (.core (coreOf s.cur)) t.walk).enterTrap s.cur (fun u => { u with bskip := false }) false t.cause.code t.tval t.tcap s.me.addr

/-- The trap of an instruction that issued: it counts against a lock that the strand holds (R265), but for STALLSHORT, which is raised
instead of issuing (R64). -/
def State.trapMe (s : State) (t : TrapInfo) : State :=
  (if t.cause = .stallshort then s else s.countFor s.cur).faultMe t

end Sys2Proof.Machine
end

