-- ==== Sys2Proof/Machine/Issue.lean ====
section
/-! DEFINITION. Issuing one instruction of the current strand (R21, R61 to R68, R75 item 6, R87, R212, R213): what may hold it, park it or
trap it before its effect, and what happens after. -/

namespace Sys2Proof.Machine

/-- The gap of a stall count (R61); the next issue is at least one cycle later. -/
def gapOf (sc : Fin 4) : Nat :=
  match sc.val with
  | 0 => 1
  | 1 => 4
  | 2 => 8
  | _ => 16

/-- A pending write of a register that is due after `cycle`. -/
def Strand.pendingAfter (t : Strand) (r : RegRef) (cycle : Nat) : Bool :=
  t.pend.any fun w => decide (w.num = r.num) && decide (w.val.cls = r.cls) && decide (cycle < w.due)

/-- The instruction is held before issue (R66, R281): a write of it would come before an earlier pending one, or it names a v register
that a queued MRDROW will write. -/
def Strand.holds (t : Strand) (b : Body) (cycle : Nat) : Bool :=
  b.writes.any (fun r => t.pendingAfter r (cycle + b.lat))
    || (b.reads ++ b.rebuilds ++ b.writes).any fun r => decide (r.cls = .v) && t.vbusy.getLsbD r.num

/-- Cycles until the last pending write of a register is readable. -/
def Strand.shortBy (t : Strand) (r : RegRef) (cycle : Nat) : Nat :=
  (t.pend.filter fun w => decide (w.num = r.num) && decide (w.val.cls = r.cls)).foldl (fun m w => max m (w.due - cycle)) 0

/-- The class codes of Table 2.3. -/
def RegCls.code (k : RegCls) : Nat :=
  match k with
  | .x => 0
  | .c => 1
  | .v => 2
  | .p => 3

/-- R64: with SCHK = 1, the first source that is not yet readable raises STALLSHORT (log 17). -/
def checkShort (t : Strand) (rs : List RegRef) (cycle : Nat) : Except Stop Unit :=
  if t.schk then
    match rs.find? fun r => decide (0 < t.shortBy r cycle) with
    | none => .ok ()
    | some r => fault .stallshort (BitVec.ofNat 64 (t.shortBy r cycle * 2 ^ 16 + r.cls.code * 2 ^ 8 + r.num)) 0
  else .ok ()

/-- A synchronised read sets the register empty and unties it, and no other (R21, R213); x0 and c0 stay full. -/
def Strand.syncRead (t : Strand) (r : RegRef) : Strand :=
  if r.fixed then t
  else match r.cls with
    | .x => { t.untie r with emptyX := maskSet t.emptyX r.num }
    | .c => { t.untie r with emptyC := maskSet t.emptyC r.num }
    | .v => { t.untie r with emptyV := maskSet t.emptyV r.num }
    | .p => t

/-- The strand as the instruction issues: BSKIP is over (R223), a synchronised read empties its register, written registers are
untied (R213). -/
def Strand.begin (t : Strand) (b : Body) : Strand :=
  let t := { t with bskip := false }
  let t := match b.sync with
    | some r => t.syncRead r
    | none => t
  b.writes.foldl Strand.noteWrite t

/-- The strand waits (R21, Table 9.1). A REP under way issues again when the wait ends (R73). -/
def Strand.parked (t : Strand) (w : Wait) : Strand :=
  { t with status := if w = .reap then .reaping else .parked, wait := w, rep := none }

/-- The strand waits at its instruction. -/
def Strand.waiting (t : Strand) : Bool := decide (t.status = .parked) || decide (t.status = .reaping)

/-- What an effect on a state `s` comes to: an instruction that parks leaves its strand as it is in `s`, but Parked. -/
def orParked (s : State) (r : Except Stop State) : Except Stop State :=
  match r with
  | .ok u => .ok (if u.me.waiting then u.setMe (s.me.parked u.me.wait) else u)
  | .error (.park w) => .ok (s.setMe (s.me.parked w))
  | e => e

/-- The effect of an instruction whose named sources are ready: registers that operand values name are read first. -/
def Body.perform (b : Body) (off : Int) (s : State) : Except Stop State := do
  let s ← b.late s
  b.eff off (s.setMe (s.me.begin b))

/-- The instruction issues and has its effect, or does not. Registers that it reads, or whose sources it writes, are rebuilt first
(R212, R213), and stay so when it parks. -/
def attempt (b : Body) (off : Int) (s : State) : Except Stop State := do
  b.pre s
  if s.me.holds b s.cycle then .error .hold
  else
    checkShort s.me b.reads s.cycle
    let s ← rebuildAll (b.reads ++ b.rebuilds ++ b.writes.flatMap s.me.droppedBy) s
    if b.reads.all s.me.isFull then orParked s (b.perform off s)
    else .ok (s.setMe (s.me.parked (.empty (s.me.empties b.reads))))

/-- After its effect: the pc moves past the instruction, the stall count runs. A strand that waits stays before its pc; a context that the
instruction freed or ended is left alone. -/
def State.finish (s : State) (b : Body) : State :=
  let t := s.me
  if t.waiting then s
  else if t.status = .free ∨ t.status = .ended then s
  else s.setMe { t with pc := if b.jumps then t.pc else t.pc + b.len, nextIssue := s.cycle + gapOf b.sc, rep := none,
                        wait := .none }

end Sys2Proof.Machine
end

