-- ==== Sys2Proof/Machine/Rep.lean ====
section
/-! DEFINITION. The REP prefix in execution (R69 to R73, R104 to R106). Each repetition is one step; TSTAT.REPDONE records how many are
complete. -/

namespace Sys2Proof.Machine

/-- The majors that REP accepts (R71, item 1). -/
def repMajor (m : Nat) : Bool :=
  decide (m < 3) || (decide (4 ≤ m) && decide (m < 8)) || decide (m = 0x0C) || decide (m = 0x0D)
    || (decide (0x10 ≤ m) && decide (m < 0x14)) || (decide (0x20 ≤ m) && decide (m < 0x33))

/-- What item 1 accepts: a lane operation or an instruction of an accepted major. -/
def repAccepts (word : Nat) : Bool := if word % 2 = 0 then decide (word ≠ 0) else repMajor (majorOf word)

/-- A byte-mode or element-mode access (R70). -/
def stepsOffset (word : Nat) : Bool :=
  decide (word % 2 = 1) && (decide (majorOf word = 0x0C) || decide (majorOf word = 0x0D) || decide (majorOf word = 0x10)
    || decide (majorOf word = 0x11) || decide (majorOf word = 0x12))

/-- A step bit is legal: the field names a register that stays within its limit over `n` repetitions. -/
def stepOk (bit : Bool) (f : Option (Nat × Nat)) (n : Nat) : Bool :=
  !bit || match f with
    | none => false
    | some (v, limit) => decide (n = 0) || decide (v + (n - 1) ≤ limit)

/-- Some repetition writes x register `r`. -/
def repWrites (a : RepArgs) (b : Body) (n r : Nat) : Bool :=
  decide (n ≠ 0) && b.writes.any fun w =>
    decide (w.cls = .x) && (if a.sd then decide (w.num ≤ r) && decide (r < w.num + n) else decide (w.num = r))

/-- R71, item 3. -/
def repLegal (a : RepArgs) (word n : Nat) (b : Body) : Bool :=
  stepOk a.sd b.fd n && stepOk a.s1 b.f1 n && stepOk a.s2 b.f2 n
    && (decide (a.ostep = 0) || stepsOffset word)
    && !(a.xc && repWrites a b n (a.count.val % 32))

/-- The word of REP. -/
def repWord (a : RepArgs) : Nat := (encode (.rep a)).getD 0

/-- The ILLEGAL of items 1 and 3: the REP word, and the repeated word above it. -/
def repIllegal {α : Type} (a : RepArgs) (word : Nat) : Except Stop α :=
  fault .illegal (BitVec.ofNat 64 (repWord a + word * 2 ^ 32)) 0

/-- RepCheck of R71 on fetched bytes: the repeated word and its length. -/
def repCheck (a : RepArgs) (bs : List Byte) (n : Nat) : Except Stop (Nat × Nat) :=
  let word := bytesWord bs
  if repAccepts word = false then repIllegal a word
  else do
    let d ← decodeFetched bs
    match fetchedBody d.1 with
    | some b => if repLegal a word n b then .ok (word, d.2) else repIllegal a word
    | none => repIllegal a word

/-- The repeated word of repetition `k`: register fields advanced for each step bit (R70). -/
def stepWord (a : RepArgs) (word k : Nat) : Nat :=
  if word % 2 = 0 then word + k * (a.sd.toNat * 2 ^ 5 + a.s2.toNat * 2 ^ 10)
  else word + k * (a.sd.toNat * 2 ^ 9 + a.s1.toNat * 2 ^ 14 + a.s2.toNat * 2 ^ 19)

/-- The REP ends: execution goes on after the repeated instruction (R72). -/
def Strand.repEnd (t : Strand) (len gap cycle : Nat) : Strand :=
  { t with repdone := 0, rep := none, pc := t.pc + 4 + len, nextIssue := cycle + gap }

/-- Repetition TSTAT.REPDONE of a REP under way. -/
def repetition (r : RepRun) (s : State) : Except Stop State :=
  let k := s.me.repdone.toNat
  if r.n ≤ k then .ok (s.setMe (s.me.repEnd r.len 1 s.cycle))
  else match wordBody (stepWord r.args r.word k) with
    | none => repIllegal r.args r.word
    | some b => do
      let s' ← attempt b (k * r.args.ostep.toInt) s
      let t := s'.me
      if t.waiting then .ok s'
      else if k + 1 = r.n then .ok (s'.setMe (t.repEnd r.len (gapOf b.sc) s.cycle))
      else .ok (s'.setMe { t with repdone := BitVec.ofNat 32 (k + 1), rep := some r, nextIssue := s.cycle + gapOf b.sc })

/-- The current strand holds a bank lock that the hardware takes back after one more issue (R265). -/
def State.lastIssue (s : State) : Bool :=
  match s.myCore.lockedBy s.cur with
  | some b => (s.myCore.lockOf b).any fun l => decide (255 ≤ l.count)
  | none => false

/-- REP issues: it fetches the repeated instruction, checks it, and starts with the repetition that REPDONE names, at once when its
own stall count is 0. With a gap before it, that repetition is looked at first: a REP that would only come to park parks now (R105). The
issue of REP counts against a lock for itself; where it is the 256th, the lock goes and LOCKHOLD comes before the repetition (R265). -/
def effRep (a : RepArgs) (s : State) : Except Stop State := do
  let n := if a.xc then (s.me.readX (a.count.val % 32)).toNat % 2 ^ 32 else a.count.val
  let h ← fetchAt s (s.me.pc + 4)
  let c ← repCheck a h.1 n
  let s := s.touchFetch h.2
  let r : RepRun := { args := a, n := n, word := c.1, len := c.2 }
  if n ≤ s.me.repdone.toNat then .ok (s.setMe (s.me.repEnd c.2 (gapOf a.sc) s.cycle))
  else if a.sc.val = 0 ∧ s.lastIssue = false then (repetition r s).map fun u => if u.me.waiting then u else u.countFor s.cur
  else match repetition r s with
    | .ok u => .ok (if u.me.waiting then u else s.setMe { s.me with rep := some r, nextIssue := s.cycle + gapOf a.sc })
    | .error _ => .ok (s.setMe { s.me with rep := some r, nextIssue := s.cycle + gapOf a.sc })

/-- REP as the issue logic sees it. The count register of XC = 1 is read before the repeated instruction is fetched: where both a fetch fault
(R104) and STALLSHORT, a rebuild or a park on that register are due, the register comes first. The spec gives no order (log 17). -/
def bodyRep (a : RepArgs) : Body :=
  { reads := if a.xc then [rx (a.count.val % 32)] else [], sc := a.sc, jumps := true, eff := fun _ => effRep a }

/-- REP: its issue, or the next repetition. -/
def tryRep (a : RepArgs) (s : State) : Except Stop State :=
  match s.me.rep with
  | some r => repetition r s
  | none => attempt (bodyRep a) 0 s

end Sys2Proof.Machine
end

