-- ==== Sys2Proof/Machine/FullEmpty.lean ====
section
/-! DEFINITION. Full/empty words, their waiting requests and bank locks (R201 to R204, R261 to R265), and the shared g registers
(R26, R27, R205). -/

namespace Sys2Proof.Machine

/-- F of a scratchpad word. -/
def State.fullBit (s : State) (pa : Nat) : Bool := (sget 0 s.fe (pa / 8)).getLsbD 0
/-- W of a scratchpad word. -/
def State.waiterBit (s : State) (pa : Nat) : Bool := (sget 0 s.fe (pa / 8)).getLsbD 1
/-- F and W of a word set. -/
def State.setFe (s : State) (pa : Nat) (f w : Bool) : State :=
  { s with fe := sset 0 s.fe (pa / 8) (BitVec.ofNat 2 (f.toNat + 2 * w.toNat)) }

/-- The core and bank of a physical address of a scratchpad window. -/
def State.bankOf (s : State) (pa : Nat) : Option (Nat × Nat) :=
  match s.place pa with
  | .bank core b => some (core, b)
  | _ => none

/-- A strand that another unit completes: it goes on after its instruction. -/
def Strand.goOn (t : Strand) (cycle : Nat) (sc : Fin 4) : Strand :=
  { t with pc := t.pc + 4, nextIssue := cycle + gapOf sc, status := .running, wait := .none, bskip := false }

/-- The parked instruction of strand `n` completes: its strand is `t`, and a lock that it holds counts it (R265). -/
def State.completed (s : State) (n : Nat) (t : Strand) : State := (s.setStrand n t).countFor n

/-- A parked instruction of strand `n` is about to complete: whether it does, and the state then. Registers dropped since it parked that its
result would untie are rebuilt first; where a replay faults the strand takes REPLAY instead, and where it waits, or the strand is held, the
instruction issues again (R213, R214, R245). In either case the instruction has had no effect (R215). -/
def State.lateTry (s : State) (n : Nat) (b : Body) : Bool × State :=
  match rebuildAll (b.writes.flatMap (s.strand n).droppedBy) { s with cur := n } with
  | .ok u => (true, { u with cur := s.cur })
  | .error (.trap t) =>
    (false, if (s.strand n).hold then s.setStrand n ((s.strand n).parked .retry)
      else { ({ s with cur := n } : State).trapMe t with cur := s.cur })
  | .error _ => (false, s.setStrand n ((s.strand n).parked .retry))

/-- A parked instruction completes as `k` says, if it does. -/
def State.lateWrite (s : State) (n : Nat) (b : Body) (k : State → State) : State :=
  if (s.lateTry n b).1 then k (s.lateTry n b).2 else (s.lateTry n b).2

/-- WAITER_WAKE becomes pending at a strand (R204). -/
def State.postWake (s : State) (n va reg : Nat) : State :=
  s.post n (mkEvent 5 0 .waiterWake (BitVec.ofNat 64 va) (BitVec.ofNat 64 reg))

/-- F of a word changes by an LDS, STS or SETFE of a strand: a mark is cleared and the strand takes WAITER_WAKE (R204). -/
def State.changeFull (s : State) (n pa va reg : Nat) (f w : Bool) : State :=
  if w then (s.setFe pa f false).postWake n va reg else s.setFe pa f false

/-- What the issue logic knows of a full/empty instruction; LDS, STS and WAITA share it. -/
def feBody (kind : FeKind) (a : RArgs) : Body :=
  { reads := [rc a.rs1, rx a.rs2] ++ (if kind = .sts then [rx a.rd] else []),
    sync := if a.sr then some (rc a.rs1) else none,
    writes := if kind = .sts then [] else [rx a.rd], sc := a.sc, eff := fun _ s => .ok s }

/-- A request's condition (Table 7.3). -/
def State.requestReady (s : State) (r : BankReq) : Bool :=
  match r.kind with
  | .lds => s.fullBit r.pa
  | .sts => !(s.fullBit r.pa)
  | .waita => s.fullBit r.pa

/-- The effect of a request at the bank; the value it returns. -/
def State.perform (s : State) (r : BankReq) : State × Word :=
  let v := BitVec.ofNat 64 (s.load r.pa 8)
  let w := s.waiterBit r.pa
  match r.kind with
  | .lds => (s.changeFull r.strand r.pa r.va r.args.rs1 false w, v)
  | .sts => ((s.store r.pa 8 r.value.toNat).changeFull r.strand r.pa r.va r.args.rs1 true w, v)
  | .waita => (s, v)

/-- The scope at which LDS, WAITA and STS order accesses (R201): 1 CORE, 2 CLUSTER, 3 DIE, 4 PACKAGE. -/
def scopeOfBank (me core : Nat) : Nat :=
  if coreOf me = core then 1 else if clusterOf me = core / 8 then 2 else if dieOf me = core / 128 then 3 else 4

/-- An acquire at a scope by strand `n` (R255). -/
def State.acquireFor (s : State) (n scope : Nat) : State := if scope < 2 then s else s.l1Acquire (coreOf n)

/-- A release at a scope by strand `n`, inside its package (R255). -/
def State.releaseFor (s : State) (n scope : Nat) : State :=
  if scope < 2 then s else s.l1Release (coreOf n) ((s.pidOf n).getD 0)

/-- A waiting request completes: the release of STS before it, its effect with the Dirty bit of its page (R433), its result, the acquire of LDS
and WAITA after it (R255, Table 7.3); its strand goes on. -/
def State.completeReq (s : State) (r : BankReq) : State :=
  s.lateWrite r.strand (feBody r.kind r.args) fun s =>
    let scope := scopeOfBank r.strand ((s.bankOf r.pa).getD (0, 0)).1
    let p := (if r.kind = .sts then (s.releaseFor r.strand scope).markWrite r.strand r.va else s).perform r
    let t := (p.1.strand r.strand).begin (feBody r.kind r.args)
    let u := p.1.completed r.strand ((if r.kind = .sts then t else t.setX r.args.rd p.2).goOn s.cycle r.args.sc)
    if r.kind = .sts then u else u.acquireFor r.strand scope

/-- A request taken off the list of its core. -/
def State.dropReq (s : State) (core : Nat) (r : BankReq) : State :=
  s.setCore core { s.core core with reqs := (s.core core).reqs.erase r }

/-- The requests in the park entries of a bank: the oldest 32 (R202), those that a lock excludes left out (R264). -/
def State.entries (s : State) (core b : Nat) : List BankReq :=
  (((s.core core).reqs.filter fun r => decide (s.bankOf r.pa = some (core, b))).take 32).filter
    fun r => !lockedAgainst (s.core core) b (some r.strand)

/-- The bank settles its requests (R202): all WAITAs that are ready, then the oldest other that is ready, again and again. Requests of the
input queue come into the entries that these leave, and are settled with them. -/
def settle (core b fuel : Nat) (s : State) : State :=
  match fuel with
  | 0 => s
  | k + 1 =>
    let waits := (s.entries core b).filter fun r => decide (r.kind = .waita) && s.requestReady r
    let s := waits.foldl (fun s r => (s.dropReq core r).completeReq r) s
    match (s.entries core b).find? fun r => decide (r.kind ≠ .waita) && s.requestReady r with
    | none => if waits = [] then s else settle core b k s
    | some r => settle core b k ((s.dropReq core r).completeReq r)

/-- The bank of a word settles. -/
def State.settleWord (s : State) (pa : Nat) : State :=
  match s.bankOf pa with
  | some (core, b) => settle core b ((s.core core).reqs.length + 1) s
  | none => s

/-- A bank lock is released (R263): the next SPLOCK that waits is granted and completes, else what the lock excluded proceeds. -/
def State.unlock (s : State) (core b : Nat) : State :=
  let k := s.core core
  match k.lockQ.find? fun q => decide (q.1 = b) with
  | some (_, n, sc) =>
    (s.setCore core { k with locks := sset none k.locks b (some { holder := n, count := 0 }),
                             lockQ := k.lockQ.filter fun q => decide (q.2.1 ≠ n) }).setStrand n
      ((s.strand n).goOn s.cycle sc)
  | none => settle core b (k.reqs.length + 1) (s.setCore core { k with locks := sset none k.locks b none })

/-- Every lock a strand holds is released. -/
def State.unlockAll (s : State) (n : Nat) : State :=
  ((List.range 16).filter fun b => match (s.core (coreOf n)).lockOf b with
    | some l => decide (l.holder = n)
    | none => false).foldl (fun s b => s.unlock (coreOf n) b) s

/-! The instructions. -/

/-- What the full/empty instructions accept at check 5. -/
def wordShape (c : Cap) : Bool := decide (c.sparse = 0) && (decide (c.fmt = 7) || decide (c.fmt = 8))

/-- The word of a full/empty instruction: checks 1 to 11, a scratchpad bank, the bank checks (R201). -/
def feAccess (s : State) (a : RArgs) (want : BitVec 14) (use : Use) : Except Stop Elem := do
  let c := s.me.readC a.rs1
  check15 s c a.rs1 want (wordShape c)
  one (bankElem s (s.pidOf s.cur) c a.rs1 (accOf s use 8 false) none [(s.me.readX a.rs2).toInt])

/-- A posted packet of a partition, from one of its strands or an invalidation of its tables, is not yet acknowledged by the peer. -/
def State.posted (s : State) (pid : Option Nat) : Bool :=
  s.unacked.any fun e => decide (e.2 ≠ 0) && if e.1 < 4096 then decide (s.pidOf e.1 = pid) else decide (pid = some (e.1 - 4096))

/-- A release at a scope (R255, R461): the L1's dirty bytes go home. At FABRIC it waits for the acknowledgements of posted packets, of its
own strand's and, since releases are cumulative (R411), of every strand of the partition, whose writes may happen before it (log 18). -/
def orderRelease (scope : Nat) (s : State) : Except Stop State :=
  if scope = 5 ∧ s.posted (s.pidOf s.cur) = true then .error .hold
  else if scope < 2 then .ok s
  else .ok (s.l1Release (coreOf s.cur) ((s.pidOf s.cur).getD 0))

/-- An acquire at a scope by the current strand (R255). -/
def orderAcquire (scope : Nat) (s : State) : State := s.acquireFor s.cur scope

/-- LDS, STS and WAITA: performed at once when the condition holds, else the request waits at the bank (R202, R203), and an STS has not written
its page. -/
def effRequest (kind : FeKind) (a : RArgs) (s : State) : Except Stop State := do
  let sts := decide (kind = .sts)
  let e ← feAccess s a (permSYNC ||| if sts then permST else permLD) (if sts then useWrite else useRead)
  let core := ((s.bankOf e.pa).getD (0, 0)).1
  let r : BankReq := { strand := s.cur, kind := kind, args := a, pa := e.pa, va := e.va, value := s.me.readX a.rd,
                       due := s.cycle + 4096 }
  let s ← if sts then orderRelease (scopeOfBank s.cur core) s else .ok s
  if s.requestReady r then
    let p := (s.touch e 8 sts).perform r
    let s := if sts then p.1 else orderAcquire (scopeOfBank s.cur core) (p.1.putX 0 a.rd p.2)
    .ok (s.settleWord e.pa)
  else
    let s := s.touch e 8 false
    let k := s.core core
    .ok ((s.setCore core { k with reqs := k.reqs ++ [r] }).setMe (s.me.parked .request))

/-- LDS. -/
def effLds (a : RArgs) := effRequest .lds a
/-- STS. -/
def effSts (a : RArgs) := effRequest .sts a
/-- WAITA. -/
def effWaita (a : RArgs) := effRequest .waita a

/-- The old state of a word: {W, F}. -/
def State.feWord (s : State) (pa : Nat) : Word := BitVec.ofNat 64 ((s.waiterBit pa).toNat * 2 + (s.fullBit pa).toNat)

/-- LDF. -/
def effLdf (a : RArgs) (s : State) : Except Stop State := do
  let e ← feAccess s a (permSYNC ||| permLD) useRead
  .ok ((s.touch e 8 false).putX 0 a.rd (s.feWord e.pa))

/-- SETFE: F from bit 0 when bit 8 is set, W from bit 1 when bit 9 is set. -/
def effSetfe (a : RArgs) (s : State) : Except Stop State := do
  let e ← feAccess s a (permSYNC ||| permLD ||| permST) useWrite
  let x := s.me.readX a.rd
  let f0 := s.fullBit e.pa
  let f := if x.getLsbD 8 then x.getLsbD 0 else f0
  let w := if x.getLsbD 9 then x.getLsbD 1 else s.waiterBit e.pa
  let s := (s.touch e 8 true).putX 0 a.rd (s.feWord e.pa)
  .ok ((if f = f0 then s.setFe e.pa f w else s.changeFull s.cur e.pa e.va a.rs1 f w).settleWord e.pa)

/-- LDS as the issue logic sees it. -/
def bodyLds (a : RArgs) : Body := { feBody .lds a with eff := fun _ => effLds a }
/-- STS. -/
def bodySts (a : RArgs) : Body := { feBody .sts a with eff := fun _ => effSts a }
/-- WAITA. -/
def bodyWaita (a : RArgs) : Body := { feBody .waita a with eff := fun _ => effWaita a }
/-- LDF. -/
def bodyLdf (a : RArgs) : Body := { feBody .lds a with eff := fun _ => effLdf a }
/-- SETFE reads x[rd] as its control word. -/
def bodySetfe (a : RArgs) : Body :=
  { feBody .lds a with reads := [rc a.rs1, rx a.rs2, rx a.rd], eff := fun _ => effSetfe a }

/-- The requests of a strand are withdrawn; the entries they leave free at their banks are taken by the next in line (R202). -/
def State.retract (s : State) (n : Nat) : State :=
  let left := s.cores.flatMap fun e => (e.2.reqs.filter fun r => decide (r.strand = n)).map (·.pa)
  left.foldl State.settleWord (s.withdraw n)

/-- A request that has waited 4,096 cycles is withdrawn and its strand takes SYNC_TIMEOUT (R203). -/
def State.timeoutReq (s : State) (core : Nat) (r : BankReq) : State :=
  let s := s.dropReq core r
  let s := s.setStrand r.strand { s.strand r.strand with status := .running, wait := .none }
  s.post r.strand (mkEvent 10 0 .syncTimeout (BitVec.ofNat 64 r.va) (BitVec.ofNat 64 r.args.rs1))

/-! Shared registers (R26, R27, R205). -/

/-- MOVG: visible to reads 4 cycles later (R26). -/
def effMovg (a : RArgs) (s : State) : Except Stop State :=
  let k := s.myCore
  .ok (s.setMyCore { k with gPend := k.gPend ++ [{ due := s.cycle + 4, reg := a.rd, val := s.me.readX a.rs1, ctx := s.cur % 16 }] })

/-- MOVG as the issue logic sees it. -/
def bodyMovg (a : RArgs) : Body :=
  { reads := [rx a.rs1], sync := if a.sr then some (rx a.rs1) else none, sc := a.sc, eff := fun _ => effMovg a }

/-- MOVFG parks on an empty g register; under SR it empties a full one. -/
def effMovfg (a : RArgs) (s : State) : Except Stop State :=
  let k := s.myCore
  if k.gEmpty.getLsbD a.rs1 then .error (.park (.greg a))
  else
    let v := sget 0 k.g a.rs1
    let s := if a.sr then s.setMyCore { k with gEmpty := maskSet k.gEmpty a.rs1 } else s
    .ok (s.putX latAlu a.rd v)

/-- MOVFG as the issue logic sees it. -/
def bodyMovfg (a : RArgs) : Body := { reads := [], writes := [rx a.rd], lat := latAlu, sc := a.sc, eff := fun _ => effMovfg a }

/-- A parked MOVFG completes with a value. -/
def Strand.takeG (t : Strand) (cycle : Nat) (a : RArgs) (v : Word) : Strand :=
  ((t.begin (bodyMovfg a)).put cycle latAlu a.rd (.x v)).goOn cycle a.sc

/-- The strands of a core in the order of contexts from `ctx` on, wrapping, `ctx` itself last. -/
def ctxAfter (core ctx : Nat) : List Nat := (List.range 16).map fun k => core * 16 + (ctx + 1 + k) % 16

/-- The strand waits to read g register `g`; its fields. -/
def Strand.waitsG (t : Strand) (g : Nat) (sr : Bool) : Option RArgs :=
  match t.wait with
  | .greg a => if t.status = .parked ∧ a.rs1.val = g ∧ a.sr = sr then some a else none
  | _ => none

/-- The ordinary MOVFG that a strand waits with completes. -/
def State.giveG (s : State) (n g : Nat) (v : Word) : State :=
  match (s.strand n).waitsG g false with
  | some a => s.lateWrite n (bodyMovfg a) fun s => s.completed n ((s.strand n).takeG s.cycle a v)
  | none => s

/-- The first of a list of strands whose synchronised MOVFG completes takes the value, and empties the register (R27). One that traps or
issues again instead has read nothing, and the next in order is the first. -/
def State.giveSync (s : State) (core g : Nat) (v : Word) (order : List Nat) : State :=
  match order with
  | [] => s
  | n :: rest =>
    match (s.strand n).waitsG g true with
    | none => s.giveSync core g v rest
    | some a =>
      let r := s.lateTry n (bodyMovfg a)
      if r.1 then
        let u := r.2.completed n ((r.2.strand n).takeG r.2.cycle a v)
        u.setCore core { u.core core with gEmpty := maskSet (u.core core).gEmpty g }
      else r.2.giveSync core g v rest

/-- A g register becomes full (R27): every parked ordinary reader completes, then one parked synchronised reader empties it. -/
def State.fillG (s : State) (core : Nat) (w : GWrite) : State :=
  let k := s.core core
  let s := s.setCore core { k with g := sset 0 k.g w.reg w.val, gEmpty := maskClear k.gEmpty w.reg }
  let order := ctxAfter core w.ctx
  (order.foldl (fun s n => s.giveG n w.reg w.val) s).giveSync core w.reg w.val order

/-- The g writes of a core that are due (R26). -/
def State.commitG (s : State) (core : Nat) : State :=
  let k := s.core core
  (k.gPend.filter fun w => decide (w.due ≤ s.cycle)).foldl (fun s w => s.fillG core w)
    (s.setCore core { k with gPend := k.gPend.filter fun w => decide (s.cycle < w.due) })

end Sys2Proof.Machine
end

