-- ==== Sys2Proof/Machine/Outcome.lean ====
section
/-! DEFINITION. What comes of trying the current strand's instruction, with the hold count of bank locks (R265): the one wrapper that
every instruction's meaning goes through. -/

namespace Sys2Proof.Machine

/-- The hold count of a bank lock (R265): one more instruction of the strand that held it before the instruction and holds it still. One
that parks has not issued. -/
def State.countIssue (s0 s : State) : State :=
  match s0.myCore.lockedBy s0.cur with
  | none => s
  | some b => if s.me.waiting = false ∧ s.myCore.lockedBy s.cur = some b then s.countFor s.cur else s

/-- What an instruction or event answers. -/
abbrev Answer := Host.Outcome State Fault Refusal

/-- What comes of an attempt: the next state, a trap, a park, or a hold before issue (R10, R21, R229). -/
def outcome (s : State) (r : Except Stop State) : Answer :=
  match r with
  | .ok s' => .next (s.countIssue s')
  | .error (.trap t) => .next (s.trapMe t)
  | .error (.park w) => .next (s.setMe (s.me.parked w))
  | .error .hold => .next { s with stalled := true }

/-- One instruction of the current strand. -/
def issue (b : Body) (s : State) : Answer :=
  outcome s ((attempt b 0 s).map fun s' => s'.finish b)

end Sys2Proof.Machine
end

