-- ==== Sys2Proof/Machine/Atomics.lean ====
section
/-! DEFINITION. Atomics and ordered access (R196 to R200). Every access is performed at its home when it issues, so ordering acts on the
L1's lines and on posted peer writes only (log 18). -/

namespace Sys2Proof.Machine

/-- ORD asks for acquire (R78): .ACQ and .AR. -/
def isAcquire (ord : Fin 4) : Bool := ord.val % 2 == 1
/-- ORD asks for release: .REL and .AR. -/
def isRelease (ord : Fin 4) : Bool := decide (2 ≤ ord.val)

/-- An access at the home slice, past the L1; the peer card's is in the packet of the atomic itself. -/
def State.touchHome (s : State) (e : Elem) (n : Nat) (write : Bool) : State :=
  if s.isPeer e.pa then s.touchPage e write
  else (s.touchPage e write).l2Request ((s.pidOf s.cur).getD 0) (some e.va) e.pa (if write then byteMask e.pa n else 0) (bitOf e.leaf.entry 5) e.integ

/-- What integer atomics accept at check 5 (R197). -/
def amoShape (c : Cap) : Bool := decide (c.sparse = 0) && decide (5 ≤ c.fmt) && decide (c.fmt ≤ 8)
/-- What AMOFADD accepts. -/
def amoFloatShape (c : Cap) : Bool := decide (c.sparse = 0) && decide (c.fmt = 0x12)

/-- The permissions of an atomic. -/
def permAmo : BitVec 14 := permLD ||| permST ||| permATOM

/-- What an atomic writes at its home. One on the peer card is a request to that card's memory controller (R198, R461), whose operation the
package numbers as Table 7.2 does; its answer is the value that the peer's memory holds. -/
def State.amoWrite (s : State) (code : Nat) (a : AArgs) (pa w : Nat) (so : Bool) (new : Option Nat) : State :=
  match s.place pa with
  | .peer => { s with outbox := s.outbox ++ [.peerAtomic pa (decide (w = 8)) code (s.me.readX a.rs2) (s.me.readX a.rd)] }
  | _ => match new with
    | some v => s.postsFor s.cur pa so fun s => s.store pa w v
    | none => s

/-- An atomic (R198): element {0}, one indivisible step at the home. `op` gives the new value of `8 × w` bits from the old one and the
operand, none when nothing is written; with its flags. `code` is its number in Table 7.2. -/
def effAmo (code : Nat) (shape : Cap → Bool) (op : Nat → Nat → Nat → Option Nat × BitVec 8) (a : AArgs) (s : State) :
    Except Stop State := do
  let c := s.me.readC a.cs
  let w := esize c.fmt
  check15 s c a.cs permAmo (shape c)
  let e ← one (placeElem s (s.pidOf s.cur) c a.cs (accOf s useAtomic w false) [])
  let s ← if isRelease a.ord then orderRelease a.scope s else .ok s
  let old := s.load e.pa w
  let r := op w old (lowWord (8 * w) (s.me.readX a.rs2))
  let s := s.touchHome e w r.1.isSome
  let s := s.amoWrite code a e.pa w (soPage e.leaf.entry) r.1
  let s := if isAcquire a.ord then orderAcquire a.scope s else s
  .ok ((s.putX 0 a.rd (extendElem c.fmt old)).orFlags r.2)

/-- An integer atomic that always writes. -/
def effAmoInt (code : Nat) (op : Nat → Nat → Nat → Nat) (a : AArgs) (s : State) : Except Stop State :=
  effAmo code amoShape (fun w x y => (some (op w x y % 2 ^ (8 * w)), 0)) a s

/-- Table 7.2. -/
def effAmoadd (a : AArgs) := effAmoInt 0 (fun _ x y => x + y) a
/-- AMOAND. -/
def effAmoand (a : AArgs) := effAmoInt 1 (fun _ x y => x &&& y) a
/-- AMOOR. -/
def effAmoor (a : AArgs) := effAmoInt 2 (fun _ x y => x ||| y) a
/-- AMOXOR. -/
def effAmoxor (a : AArgs) := effAmoInt 3 (fun _ x y => x ^^^ y) a
/-- AMOMIN compares as signed numbers whatever the format. -/
def effAmomin (a : AArgs) := effAmoInt 4 (fun w x y => if signedOf (8 * w) x ≤ signedOf (8 * w) y then x else y) a
/-- AMOMAX. -/
def effAmomax (a : AArgs) := effAmoInt 5 (fun w x y => if signedOf (8 * w) x ≤ signedOf (8 * w) y then y else x) a
/-- AMOMINN. -/
def effAmominn (a : AArgs) := effAmoInt 6 (fun _ x y => min x y) a
/-- AMOMAXN. -/
def effAmomaxn (a : AArgs) := effAmoInt 7 (fun _ x y => max x y) a
/-- AMOSWAP. -/
def effAmoswap (a : AArgs) := effAmoInt 8 (fun _ _ y => y) a
/-- AMOCAS: x[rd] is the expected value; nothing is written when it differs. -/
def effAmocas (a : AArgs) (s : State) : Except Stop State :=
  effAmo 9 amoShape (fun w x y => (if x = lowWord (8 * w) (s.me.readX a.rd) then some y else none, 0)) a s
/-- AMOFADD rounds to nearest whatever FRM holds. -/
def effAmofadd (a : AArgs) (s : State) : Except Stop State :=
  effAmo 10 amoFloatShape (fun _ x y =>
    let r := fp32.op2 (fun p q => p.add q .rne) .rne x y
    (some r.1, r.2)) a s

/-- LD.ACQ: extends as LDE does. -/
def effLdAcq (a : AArgs) (s : State) : Except Stop State := do
  let c := s.me.readC a.cs
  let e ← elemAccess s a.cs [] useRead
  let s := orderAcquire a.scope (s.touch e (esize c.fmt) false)
  .ok (s.putX 0 a.rd (extendElem c.fmt (s.load e.pa (esize c.fmt))))

/-- ST.REL. -/
def effStRel (a : AArgs) (s : State) : Except Stop State := do
  let n := esize (s.me.readC a.cs).fmt
  let e ← elemAccess s a.cs [] useWrite
  let s ← orderRelease a.scope s
  .ok (s.storeElem e n (lowWord (8 * n) (s.me.readX a.rs2)))

/-- FENCE (R200). -/
def effFence (a : AArgs) (s : State) : Except Stop State := do
  let s ← if isRelease a.ord then orderRelease a.scope s else .ok s
  .ok (if isAcquire a.ord then orderAcquire a.scope s else s)

/-- An atomic as the issue logic sees it. -/
def bodyAmo (a : AArgs) (eff : State → Except Stop State) : Body :=
  { reads := [rc a.cs, rx a.rs2], writes := [rx a.rd], sc := a.sc, eff := fun _ => eff }

end Sys2Proof.Machine
end

