-- ==== Sys2Proof/Machine/Recipes.lean ====
section
/-! DEFINITION. The recipe instructions (R207 to R214). -/

namespace Sys2Proof.Machine

/-- ILLEGAL with a word in TVAL. -/
def illegalWord {α : Type} (w : Nat) : Except Stop α := fault .illegal (BitVec.ofNat 64 w) 0

/-- The register a recipe instruction names: class 0 is x, class 1 is v. -/
def tagReg (a : RArgs) : RegRef := if a.rs2.val = 0 then rx a.rd else rv a.rd

/-- The instructions a recipe admits (R208), by their words. -/
def recordable (w : Nat) : Bool :=
  let m := majorOf w
  if w % 2 = 0 then decide (w ≠ 0)
  else decide (m ≤ 3) || (decide (m = 0x18) && decide (w / 2 ^ 25 % 16 ≤ 12)) || (decide (0x20 ≤ m) && decide (m ≤ 0x30))
    || decide (m = 0x32) || decide (m = 0x0C)
    || (decide (m = 0x10) && !(bitOf w 29)) || (decide (m = 0x12) && decide (w / 2 ^ 27 % 4 ≠ 1))
    || (decide (m = 0x13) && decide (w / 2 ^ 27 % 4 = 0))

/-- A recorded word meets R208; the last one also writes an x or v register. The class of its destination alone is looked at: a last
instruction with rd = x0 is accepted, on which R208 is silent (DESIGN CHOICE, log 15). -/
def recordOk (w : Nat) (last : Bool) : Bool :=
  recordable w && match wordBody w with
    | none => false
    | some b => b.sync.isNone && (!last || match b.writes.head? with
      | some r => decide (r.cls = .x) || decide (r.cls = .v)
      | none => false)

/-- The `n` words from an offset of PCC, where they lie, and the offset after them; the first that may not be recorded is
ILLEGAL. -/
def recordWords (s : State) (off : Int) (n : Nat) : Except Stop (List Nat × List Elem × Int) :=
  match n with
  | 0 => .ok ([], [], off)
  | k + 1 => do
    let h ← fetchAt s off
    let w := bytesWord h.1
    if recordOk w (decide (k = 0)) = false then illegalWord w
    else
      let r ← recordWords s (off + h.1.length) k
      .ok (w :: r.1, h.2 ++ r.2.1, r.2.2)

/-- Every register tied to a slot untied, its dropped ones first rebuilt. -/
def freeSlot (slot : Nat) (s : State) : Except Stop State := do
  let rs := s.me.tiedTo slot
  let s ← rebuildAll rs s
  .ok (s.setMe (rs.foldl Strand.untie s.me))

/-- RDEF. -/
def effRdef (a : RArgs) (s : State) : Except Stop State := do
  let r ← recordWords s (s.me.pc + 4) a.rs2
  let s ← freeSlot a.rs1 s
  let s := s.touchFetch r.2.1
  .ok (s.setMe { s.me with recipes := sset [] s.me.recipes a.rs1 r.1, pc := r.2.2 })

/-- RTAG: tying x0 has no effect. A dropped register is rebuilt first, whatever slot it is tied to: R210 says so for another slot and is silent
on the same one (DESIGN CHOICE, log 15). -/
def effRtag (a : RArgs) (s : State) : Except Stop State := do
  let r := tagReg a
  let word := encR 0x17 1 a
  let t := s.me
  match recipeDest (t.recipe a.rs1) with
  | none => illegalWord word
  | some d =>
    if d.cls ≠ r.cls ∨ (t.sources a.rs1).contains r then illegalWord word
    else if r.fixed then .ok s
    else
      let s ← rebuild r s
      match tieKey r with
      | some k => .ok (s.setMe { s.me with ties := sset 0 s.me.ties k (a.rs1.val + 1) })
      | none => .ok s

/-- RDROP. -/
def effRdrop (a : RArgs) (s : State) : Except Stop State :=
  let r := tagReg a
  .ok (if s.me.mayDrop r && !(s.me.isDropped r) then s.drop s.cur r else s)

/-- RPIN. -/
def effRpin (a : RArgs) (s : State) : Except Stop State := do
  let r := tagReg a
  if s.me.tieOf r ≠ a.rs1.val + 1 then .ok s
  else
    let s ← rebuild r s
    .ok (s.setMe (s.me.untie r))

/-- RINV. -/
def effRinv (a : RArgs) (s : State) : Except Stop State := do
  let s ← freeSlot a.rs1 s
  .ok (s.setMe { s.me with recipes := sset [] s.me.recipes a.rs1 [] })

/-- A recipe instruction as the issue logic sees it: it reads no register. -/
def bodyRecipe (a : RArgs) (jumps : Bool) (eff : State → Except Stop State) : Body :=
  { reads := [], sc := a.sc, jumps := jumps, eff := fun _ => eff }

end Sys2Proof.Machine
end

