-- ==== Sys2Proof/Machine/Banks.lean ====
section
/-! DEFINITION. Scratchpad banks: what addresses a bank (R484), changing its role (R253) or format (R260), locks (R263), barrier objects
(R266 to R272), and the completion words of engines (R262). -/

namespace Sys2Proof.Machine

/-- The bank at a virtual address of a partition, where the page maps one. -/
def bankAt (s : State) (pid : Option Nat) (va : Nat) : Option (Nat × Nat) :=
  match translate s pid va useRead with
  | .ok (_, pa) => s.bankOf pa
  | .error _ => none

/-- Some of the `n` pages of 64 KiB from `va` maps bank `b` of `core` with `test b`. -/
def pagesMeet (s : State) (pid : Option Nat) (core : Nat) (test : Nat → Bool) (va n : Nat) : Bool :=
  match n with
  | 0 => false
  | k + 1 =>
    (match bankAt s pid va with
      | some (c, b) => decide (c = core) && test b
      | none => false)
    || pagesMeet s pid core test (va + 2 ^ 16) k

/-- The span of a capability operand meets a bank of the core (R484); one whose tag a sweep has cleared still counts, an absent one does not. -/
def capMeets (s : State) (pid : Option Nat) (core : Nat) (test : Nat → Bool) (c : Cap) : Bool :=
  decide (c.bits ≠ 0) && match span c with
    | none => false
    | some (lo, hi) =>
      let a := lo.toNat / 2 ^ 16
      pagesMeet s pid core test (a * 2 ^ 16) ((hi.toNat + 2 ^ 16 - 1) / 2 ^ 16 - a)

/-- The capability operands of the operations that R484 counts. -/
def Core.operands (k : Core) : List Cap :=
  (k.cq.flatMap fun q => q.2.ops.flatMap fun o => [o.dst, o.src, o.aux])
    ++ k.mq.flatMap fun o => o.cap :: o.aux.toList

/-- Those of the operations that strands of a core placed in a link queue. -/
def State.linkOperands (s : State) (core : Nat) : List Cap :=
  s.dies.flatMap fun d => d.2.lq.flatMap fun q =>
    (q.2.ops.filter fun o => decide (coreOf o.strand = core)).flatMap fun o => [o.dst, o.src, o.auxCap]

/-- An operation addresses some bank of the core that satisfies the test (R484). -/
def addressed (s : State) (core : Nat) (test : Nat → Bool) : Bool :=
  ((s.core core).operands ++ s.linkOperands core).any (capMeets s (s.pidOfCluster (core / 8)) core test)

/-- A bank zeroed: value, F and W, the tags of its granules, and its block records (R293). -/
def State.zeroBank (s : State) (core b : Nat) : State :=
  let lo := s.window core + b * 2 ^ 16
  let s := s.setCore core { s.core core with blocks := sclear (256 * b) (256 * b + 256) (s.core core).blocks }
  { s with mem := sclear lo (lo + 2 ^ 16) s.mem, tags := sclear (lo / 64) (lo / 64 + 2 ^ 10) s.tags,
           fe := sclear (lo / 8) (lo / 8 + 2 ^ 13) s.fe }

/-! L1CFG (R253). -/

/-- A bank changes role between two values of NB. -/
def changesRole (old new : BitVec 2) (b : Nat) : Bool := decide (l1First old ≤ b) != decide (l1First new ≤ b)

/-- A strand that waits at a bank issues its instruction again. -/
def Strand.reissue (t : Strand) : Strand := if t.status = .parked then { t with wait := .retry } else t

/-- Strands that wait at a changing bank are judged anew (R253). -/
def State.reissueAt (s : State) (core : Nat) (test : Nat → Bool) : State :=
  let k := s.core core
  let at_ (pa : Nat) : Bool := match s.bankOf pa with
    | some (c, b) => decide (c = core) && test b
    | none => false
  let who := (k.reqs.filter fun r => at_ r.pa).map (·.strand) ++ (k.arrivals.filter fun r => at_ r.pa).map (·.strand)
    ++ (k.lockQ.filter fun q => test q.1).map (·.2.1)
    ++ (s.strands.filter fun e => match e.2.wait with
      | .bar pa _ => at_ pa
      | _ => false).map (·.1)
  let s := s.setCore core { k with reqs := k.reqs.filter fun r => !(at_ r.pa), arrivals := k.arrivals.filter fun r => !(at_ r.pa),
                                   lockQ := k.lockQ.filter fun q => !(test q.1) }
  who.foldl (fun s n => s.setStrand n (s.strand n).reissue) s

/-- Steps 2 and 3 of R253. -/
def State.reconfigure (s : State) (core : Nat) (nb : BitVec 2) : State :=
  let test := changesRole (s.core core).nb nb
  let s := s.writeBack ((s.pidOfCluster (core / 8)).getD 0) (s.core core).l1
  let s := s.reissueAt core test
  let s := ((List.range 16).filter test).foldl (fun s b => s.zeroBank core b) s
  let k := s.core core
  s.setCore core { k with nb := nb, l1 := [], l1cfgNext := none, bfmt := skeep (fun b => !(test b)) k.bfmt,
                          locks := skeep (fun b => !(test b)) k.locks }

/-- A write of L1CFG by a strand: NB 3 is ignored, a change waits until no operation addresses a bank that changes role (R253). -/
def writeL1cfg (v : Word) (s : State) : Except Stop State :=
  let core := coreOf s.cur
  let nb := v.setWidth 2
  if nb = 3 ∨ nb = s.myCore.nb then .ok s
  else if addressed s core (changesRole s.myCore.nb nb) then .error (.park .retry)
  else .ok (s.reconfigure core nb)

/-! BANKFMT (R260). -/

/-- What an instruction that names a whole bank accepts at check 5. -/
def anyShape (c : Cap) : Bool := sparseOk c.view && (decide (c.fmt ≠ fmtI4X) || decide (c.stride 0 = 1))

/-- The bank that a span covers exactly; none when it is no scratchpad bank of the core. -/
def exactBank (s : State) (core : Nat) (c : Cap) : Option Nat :=
  match span c with
  | none => none
  | some (lo, hi) =>
    if hi - lo ≠ 2 ^ 16 ∨ lo < 0 then none
    else match translate s (s.pidOfCluster (core / 8)) lo.toNat useRead with
      | .error _ => none
      | .ok (_, pa) =>
        match s.bankOf pa with
        | none => none
        | some (k, b) => if k = core ∧ pa % 2 ^ 16 = 0 ∧ b < l1First (s.core core).nb then some b else none

/-- Checks 1 to 6 on element 0 of a capability; its byte address. -/
def elemZero (s : State) (reg : Nat) (want : BitVec 14) : Except Stop Int := do
  let c := s.me.readC reg
  check15 s c reg want (anyShape c)
  one (boundElem c [] reg)
  .ok (if c.fmt = fmtI4X then elemAddr c [] / 2 else elemAddr c [])

/-- The first page of a span translated by the current strand. -/
def State.touchSpan (s : State) (c : Cap) : State :=
  match span c with
  | none => s
  | some (lo, _) =>
    match translate s (s.pidOf s.cur) lo.toNat useRead with
    | .error _ => s
    | .ok (l, _) => s.touchLeaf (.core (coreOf s.cur)) ((s.pidOf s.cur).getD 0) lo.toNat l false

/-- BANKFMT. -/
def effBankfmt (a : EqArgs) (s : State) : Except Stop State := do
  let ad ← elemZero s a.ca (permLD ||| permST ||| permSYNC)
  let core := coreOf s.cur
  match exactBank s core (s.me.readC a.ca) with
  | none => fault .pageAttr (BitVec.ofInt 64 ad) a.ca
  | some b =>
    let v := s.me.readX a.xc
    need (decide (v.toNat < 256) && (fmtBits (v.toNat % 64)).isSome) .capFormat v a.ca
    if lockedAgainst s.myCore b (some s.cur) then .error (.park .retry)
    else if addressed s core (fun k => decide (k = b)) then .error (.park (.bankfmt a))
    else
      let opened := bitOf (s.myCore.bfmtOf b).toNat 6 && !(bitOf v.toNat 6)
      let s := s.touchSpan (s.me.readC a.ca)
      let s := if opened then settle core b (s.myCore.reqs.length + 1) (s.zeroBank core b) else s
      .ok (s.setMyCore { s.myCore with bfmt := sset 0 s.myCore.bfmt b (v.setWidth 8) })

/-! Locks (R263). -/

/-- The scratchpad bank of the issuing core that holds element 0, and the state after its translation. -/
def lockBank (s : State) (a : EqArgs) : Except Stop (State × Nat) := do
  let ad ← elemZero s a.ca (permSYNC ||| permST)
  let w : Word := BitVec.ofInt 64 ad
  need (decide (0 ≤ ad)) .pageFault w a.ca
  match translate s (s.pidOf s.cur) ad.toNat useRead with
  | .error e => .error (.trap (e.trap (s.pidOf s.cur) ad.toNat a.ca))
  | .ok (l, pa) =>
    match s.bankOf pa with
    | none => fault .pageAttr w a.ca
    | some (k, b) =>
      need (decide (k = coreOf s.cur) && decide (b < l1First s.myCore.nb)) .pageAttr w a.ca
      .ok (s.touchLeaf (.core (coreOf s.cur)) ((s.pidOf s.cur).getD 0) ad.toNat l false, b)

/-- The word of a bank instruction. -/
def bankWord (q : Nat) (a : EqArgs) : Word := BitVec.ofNat 64 (encVE 0x3B a.ca a.cb a.xc q a.f2 a.h a.sc)

/-- SPLOCK. -/
def effSplock (a : EqArgs) (s : State) : Except Stop State := do
  let (s, b) ← lockBank s a
  let k := s.myCore
  match k.lockedBy s.cur with
  | some h => if h = b then .ok s else fault .illegal (bankWord 6 a) 0
  | none =>
    match k.lockOf b with
    | none => .ok (s.setMyCore { k with locks := sset none k.locks b (some { holder := s.cur, count := 0 }) })
    | some _ => .ok ((s.setMyCore { k with lockQ := k.lockQ ++ [(b, s.cur, a.sc)] }).setMe (s.me.parked .request))

/-- SPUNLOCK. -/
def effSpunlock (a : EqArgs) (s : State) : Except Stop State := do
  let (s, b) ← lockBank s a
  .ok (if s.myCore.lockedBy s.cur = some b then s.unlock (coreOf s.cur) b else s)

/-! Barrier objects (R266 to R272). -/

/-- A barrier object (Table 10.4). FLAGS holds its 16 bits. -/
structure Barrier where
  count : Nat
  flags : Nat
  exp : Nat
  phase : Bool
  arr : Nat
  pend : Nat
  deriving DecidableEq, Repr

/-- The object at a physical address. -/
def State.barrier (s : State) (pa : Nat) : Barrier :=
  let w0 := s.load pa 8
  let w1 := s.load (pa + 8) 8
  { count := w1 / 2 ^ 28, flags := w1 / 2 ^ 12 % 2 ^ 16, exp := w1 % 2 ^ 12, phase := bitOf w0 52, arr := w0 / 2 ^ 40 % 2 ^ 12,
    pend := w0 % 2 ^ 40 }

/-- The 16 bytes of an object. -/
def Barrier.number (b : Barrier) : Nat :=
  b.pend % 2 ^ 40 + b.arr % 2 ^ 12 * 2 ^ 40 + b.phase.toNat * 2 ^ 52
    + (b.exp % 2 ^ 12 + b.flags % 2 ^ 16 * 2 ^ 12 + b.count % 2 ^ 36 * 2 ^ 28) * 2 ^ 64

/-- The object written. -/
def State.setBarrier (s : State) (pa : Nat) (b : Barrier) : State := s.store pa 16 b.number

/-- What an arrival needs of its instruction. -/
def bodyArrive (a : EqArgs) : Body :=
  { reads := [rc a.ca], writes := [rx a.xc], sc := a.sc, eff := fun _ s => .ok s }

/-- The strand of an arrival goes on with the phase that it returns. -/
def State.arrived (s : State) (r : Arrival) (phase : Bool) : State :=
  let t := (s.strand r.strand).begin (bodyArrive r.args)
  s.completed r.strand ((t.setX r.args.xc (flagWord phase)).goOn s.cycle r.args.sc)

/-- A parked arrival completes with the phase it returns. -/
def State.completeArrival (s : State) (r : Arrival) (phase : Bool) : State :=
  s.lateWrite r.strand (bodyArrive r.args) fun s => s.arrived r phase

/-- An arrival taken off the list of its core. -/
def State.dropArrival (s : State) (core : Nat) (r : Arrival) : State :=
  s.setCore core { s.core core with arrivals := (s.core core).arrivals.erase r }

/-- The first of a list of parked arrivals that completes, applied to the object `b` (R267); whether there is one. One that traps or issues
again instead has not arrived (R215). -/
def State.applyArrival (s : State) (core pa : Nat) (b : Barrier) (phase : Bool) (rs : List Arrival) : Bool × State :=
  match rs with
  | [] => (false, s)
  | r :: rest =>
    let u := (s.dropArrival core r).lateTry r.strand (bodyArrive r.args)
    if u.1 then (true, (u.2.setBarrier pa { b with arr := (b.arr + 2 ^ 12 - 1) % 2 ^ 12 }).arrived r phase)
    else u.2.applyArrival core pa b phase rest

/-- Every BARWAIT parked on an object completes (R272). -/
def State.wakeWaiters (s : State) (pa : Nat) : State :=
  s.strands.foldl (fun s e => match e.2.wait with
    | .bar p a => if p = pa then s.completed e.1 (e.2.goOn s.cycle a.sc) else s
    | _ => s) s

/-- The completion rule of R267; `arrivals` is whether parked arrivals are applied. A BARARR or BARWAIT that has already parked completes here
whatever strand holds the bank's lock when an engine's subtraction completes the phase: R264 parks an instruction before it performs, and
says nothing of one that waits (DESIGN CHOICE, log 24). -/
def settleBarrier (core pa : Nat) (arrivals : Bool) (fuel : Nat) (s : State) : State :=
  match fuel with
  | 0 => s
  | k + 1 =>
    let b := s.barrier pa
    if b.arr = 0 ∧ b.pend = 0 then
      let phase := !b.phase
      let n : Barrier := { b with phase := phase, arr := b.exp, count := (b.count + 1) % 2 ^ 36 }
      let s := (s.setBarrier pa n).wakeWaiters pa
      let r := s.applyArrival core pa n phase ((s.core core).arrivals.filter fun r => arrivals && decide (r.pa = pa))
      if r.1 then settleBarrier core pa arrivals k r.2 else r.2
    else s

/-- The object is updated and the rule applied (R267). -/
def State.updateBarrier (s : State) (core pa : Nat) (arrivals : Bool) (b : Barrier) : State :=
  settleBarrier core pa arrivals ((s.core core).arrivals.length + 1) (s.setBarrier pa b)

/-- An engine operation subtracts delivered bytes and merges its flags (R268). -/
def State.barSub (s : State) (pa n : Nat) (flags : BitVec 8) : State :=
  match s.bankOf pa with
  | none => s
  | some (core, _) =>
    let b := s.barrier pa
    s.updateBarrier core pa true
      { b with pend := (b.pend + 2 ^ 40 - n % 2 ^ 40) % 2 ^ 40, flags := b.flags ||| flags.toNat }

/-- What barrier objects accept at check 5 (R269). -/
def barShape (c : Cap) : Bool := wordShape c && decide (2 ≤ c.extent 0)

/-- The object of a barrier instruction (R269): a bank of the issuing core, then the bank checks. -/
def barAccess (s : State) (a : EqArgs) (want : BitVec 14) (use : Use) : Except Stop Elem := do
  let c := s.me.readC a.ca
  check15 s c a.ca want (barShape c)
  one (boundElem c [0] a.ca)
  one (boundElem c [1] a.ca)
  one (bankElem s (s.pidOf s.cur) c a.ca (accOf s use 16 false) (some (coreOf s.cur)) [0])

/-- The permissions of the barrier instructions that write. -/
def permBar : BitVec 14 := permLD ||| permST ||| permSYNC

/-- Parked arrivals and waiters of an object complete without effect (R269). -/
def State.releaseBarrier (s : State) (pa : Nat) (phase : Bool) : State :=
  let core := coreOf s.cur
  let rs := (s.core core).arrivals.filter fun r => decide (r.pa = pa)
  let s := s.setCore core { s.core core with arrivals := (s.core core).arrivals.filter fun r => decide (r.pa ≠ pa) }
  (rs.foldl (fun s r => s.completeArrival r phase) s).wakeWaiters pa

/-- BARINIT. -/
def effBarinit (a : EqArgs) (s : State) : Except Stop State := do
  let e := (s.me.readX a.xc).toNat
  need (decide (e ≠ 0) && decide (e < 2 ^ 12)) .illegal (bankWord 0 a) 0
  let o ← barAccess s a permBar useWrite
  let s := (s.touch o 16 true).releaseBarrier o.pa (s.barrier o.pa).phase
  .ok (s.updateBarrier (coreOf s.cur) o.pa false { count := 0, flags := 0, exp := e, phase := false, arr := e, pend := 0 })

/-- BAREXP. -/
def effBarexp (a : EqArgs) (s : State) : Except Stop State := do
  let o ← barAccess s a permBar useWrite
  let b := s.barrier o.pa
  .ok ((s.touch o 16 true).updateBarrier (coreOf s.cur) o.pa true
    { b with pend := (b.pend + (s.me.readX a.xc).toNat) % 2 ^ 40 })

/-- BARARR: it parks when the phase waits only on bytes (R270). -/
def effBararr (a : EqArgs) (s : State) : Except Stop State := do
  let o ← barAccess s a permBar useWrite
  let b := s.barrier o.pa
  let s := s.touch o 16 true
  if b.arr = 0 then
    let k := s.myCore
    .ok ((s.setMyCore { k with arrivals := k.arrivals ++ [{ strand := s.cur, pa := o.pa, args := a }] }).setMe
      (s.me.parked .request))
  else .ok ((s.putX 0 a.xc (flagWord b.phase)).updateBarrier (coreOf s.cur) o.pa true { b with arr := b.arr - 1 })

/-- BARWAIT. -/
def effBarwait (a : EqArgs) (s : State) : Except Stop State := do
  let o ← barAccess s a (permLD ||| permSYNC) useRead
  if (s.barrier o.pa).phase = (s.me.readX a.xc).getLsbD 0 then .error (.park (.bar o.pa a))
  else .ok (s.touch o 16 false)

/-- BARFLG. -/
def effBarflg (a : EqArgs) (s : State) : Except Stop State := do
  let o ← barAccess s a permBar useWrite
  let b := s.barrier o.pa
  .ok (((s.touch o 16 true).putX 0 a.xc (BitVec.ofNat 64 b.flags)).updateBarrier (coreOf s.cur) o.pa false { b with flags := 0 })

/-! Completion words (R262). -/

/-- An engine writes a completion word for the operation of strand `n`; `queue` is 0 to 3 for CQ, 4 for MQ, 5 for LQ (R204). In the
scratchpad the word becomes full, a mark is cleared and the strand takes WAITER_WAKE; elsewhere it is a plain store. -/
def State.completionWord (s : State) (n queue pa va : Nat) (v : Word) : State :=
  match s.bankOf pa with
  | none => s.store pa 8 v.toNat
  | some _ =>
    let w := s.waiterBit pa
    let s := (s.store pa 8 v.toNat).setFe pa true false
    let s := if w then s.postWake n va queue else s
    s.settleWord pa

/-! As the issue logic sees them. -/

/-- A bank instruction that reads c[ca]; `read` and `write` say what it does with x[xc]. -/
def bodyBank (a : EqArgs) (read write : Bool) (eff : State → Except Stop State) : Body :=
  { reads := rc a.ca :: (if read then [rx a.xc] else []), writes := if write then [rx a.xc] else [], sc := a.sc,
    eff := fun _ => eff }

/-- BARINIT. -/
def bodyBarinit (a : EqArgs) : Body := bodyBank a true false (effBarinit a)
/-- BAREXP. -/
def bodyBarexp (a : EqArgs) : Body := bodyBank a true false (effBarexp a)
/-- BARARR. -/
def bodyBararr (a : EqArgs) : Body := bodyBank a false true (effBararr a)
/-- BARWAIT. -/
def bodyBarwait (a : EqArgs) : Body := bodyBank a true false (effBarwait a)
/-- BARFLG. -/
def bodyBarflg (a : EqArgs) : Body := bodyBank a false true (effBarflg a)
/-- BANKFMT. -/
def bodyBankfmt (a : EqArgs) : Body := bodyBank a true false (effBankfmt a)
/-- SPLOCK. -/
def bodySplock (a : EqArgs) : Body := bodyBank a false false (effSplock a)
/-- SPUNLOCK. -/
def bodySpunlock (a : EqArgs) : Body := bodyBank a false false (effSpunlock a)

end Sys2Proof.Machine
end

