-- ==== Sys2Proof/Machine/Csr.lean ====
section
/-! DEFINITION. The control registers of Table 1.8 (R46 to R51, R113 to R117, R218, R219, R223, R234). -/

namespace Sys2Proof.Machine

/-- The numbers of Table 1.8. -/
def csrKnown (n : Nat) : Bool :=
  decide (n ≤ 0x006) || (decide (0x010 ≤ n) && decide (n ≤ 0x012)) || (decide (0x018 ≤ n) && decide (n ≤ 0x01B))
    || (decide (0x020 ≤ n) && decide (n ≤ 0x022)) || (decide (0x030 ≤ n) && decide (n ≤ 0x044))
    || (decide (0x050 ≤ n) && decide (n ≤ 0x054)) || decide (n = 0x058) || (decide (0x060 ≤ n) && decide (n ≤ 0x07B))

/-- Those marked P. -/
def csrPriv (n : Nat) : Bool :=
  decide (n ≤ 0x006) || decide (n = 0x020) || decide (n = 0x022) || (decide (0x050 ≤ n) && decide (n ≤ 0x054))
    || decide (n = 0x058) || (decide (0x078 ≤ n) && decide (n ≤ 0x07B))

/-- TVEC. -/
def csrTVEC : Nat := 0x004
/-- ADMIT. -/
def csrADMIT : Nat := 0x021
/-- L1CFG. -/
def csrL1CFG : Nat := 0x022
/-- CONVPOOL. -/
def csrCONVPOOL : Nat := 0x050

/-- The RW fields of a register. -/
def csrMask (n : Nat) : Word :=
  match n with
  | 0x000 => 0x80000000000000FF
  | 0x001 => 0xFFFFFFFFFFFFFFFF
  | 0x002 => 0xFFFFFFFFFFFFFFFF
  | 0x003 => 0xFFFFFFFFFFFFFFFF
  | 0x005 => 0x00000001FFFFFFFF
  | 0x006 => 0x00000000FFFFFFFF
  | 0x018 => 0xFF
  | 0x019 => 0x3
  | 0x01A => 0x1
  | 0x01B => 0xFF
  | 0x020 => 0x1
  | 0x021 => 0xFFFF
  | 0x022 => 0x3
  | 0x051 => 0xF800FFFFFFFFFF80
  | 0x052 => 0xF800FFFFFFFFFFE0
  | 0x054 => 0x3FFF
  | 0x058 => 0xFFFF
  | n => if 0x078 ≤ n ∧ n ≤ 0x07B then 0x007FFFFFFFFFFFFF else 0

/-- TSTAT (Table 7.8). -/
def Strand.tstat (t : Strand) : Word :=
  BitVec.ofNat 64 (t.repdone.toNat + t.bskip.toNat * 2 ^ 32 + t.hdepth * 2 ^ 33)

/-- The mode that SLOTMODE holds: that of the last write. -/
def Core.slotMode (k : Core) : Bool := (k.slotNext.getLast?.map (·.2)).getD k.slotFixed

/-- The sequence numbers as QSEQM and QSEQ0 to QSEQ3 report them. -/
def seqWord (issued done : Nat) : Word := BitVec.ofNat 64 (issued % 2 ^ 32 * 2 ^ 32 + done % 2 ^ 32)

/-- A counter of retention slot `k` of the strand's partition on its die. -/
def retentionOf (s : State) (k : Nat) : Retention :=
  sget Retention.reset (s.die (dieOf s.cur)).ret (8 * (s.pidOf s.cur).getD 0 + k)

/-- The value of a register that holds a number. -/
def csrNow (s : State) (n : Nat) : Word :=
  let t := s.me
  let k := s.myCore
  let p := s.myPart
  match n with
  | 0x000 => t.tcause
  | 0x001 => t.tepc
  | 0x002 => t.tval
  | 0x003 => t.tcap
  | 0x005 => t.tstat
  | 0x006 => t.trep.setWidth 64
  | 0x010 => BitVec.ofNat 64 s.cur
  | 0x011 => 128
  | 0x012 => 0x0100
  | 0x018 => t.fflags.setWidth 64
  | 0x019 => t.frm.setWidth 64
  | 0x01A => flagWord t.schk
  | 0x01B => k.mflags.setWidth 64
  | 0x020 => flagWord k.slotMode
  | 0x021 => k.admitMask.setWidth 64
  | 0x022 => k.nb.setWidth 64
  | 0x040 => seqWord k.mqIssued k.mqDone
  | 0x051 => p.mtbase
  | 0x052 => p.otbase
  | 0x053 => BitVec.ofNat 64 ((s.pidOf s.cur).getD 0)
  | 0x054 => p.pmon
  | 0x058 => p.wmask.setWidth 64
  | n =>
    if 0x030 ≤ n ∧ n < 0x040 then (k.bfmtOf (n - 0x030)).setWidth 64
    else if 0x041 ≤ n ∧ n < 0x045 then
      let q := sget CopyQueue.reset k.cq (n - 0x041)
      seqWord q.issued q.done
    else if 0x060 ≤ n ∧ n < 0x068 then (retentionOf s (n - 0x060)).hit
    else if 0x068 ≤ n ∧ n < 0x070 then (retentionOf s (n - 0x068)).miss
    else if 0x070 ≤ n ∧ n < 0x078 then (retentionOf s (n - 0x070)).ovf
    else if 0x078 ≤ n ∧ n < 0x07C then sget 0 t.bkpt (n - 0x078)
    else 0

/-- The writes of a list after the last one by context `me`. -/
def othersSince (me : Nat) (l : List OldCsr) : List OldCsr :=
  match l with
  | [] => []
  | o :: rest => if rest.any fun e => decide (e.writer = me) then othersSince me rest else if o.writer = me then rest else o :: rest

/-- The value that CSRR sees: another strand's write of a core register shows 4 cycles after it (R117), the strand's own at once (R115). -/
def csrSeen (s : State) (n : Nat) : Word :=
  match othersSince (s.cur % 16) (s.myCore.csrOld.filter fun o => decide (o.num = n) && decide (s.cycle < o.expires)) with
  | o :: _ => o.val
  | [] => csrNow s n

/-- The partition of the current strand changed; nothing when its cluster belongs to none. -/
def State.onPart (s : State) (f : Partition → Partition) : State :=
  match s.pidOf s.cur with
  | some pid => s.setPart pid (f (s.part pid))
  | none => s

/-- A write of L2WMASK; a change of a way mask is a layout change (R453). -/
def State.writeWmask (s : State) (m : BitVec 16) : State :=
  let s' := s.onPart fun p => { p with wmask := m }
  if s.myPart.wmask = m then s' else { s' with epoch := s'.epoch + 1 }

/-- What a paired partition tells its other half (R458). -/
def State.toPeer (s : State) (pid : Nat) (r : Reply) : State :=
  if (s.part pid).paired.isSome then { s with outbox := s.outbox ++ [r] } else s

/-- Every cluster of a partition changed. -/
def State.onClusters (s : State) (pid : Nat) (f : Cluster → Cluster) : State :=
  ((List.range 32).filter fun c => decide (s.pidOfCluster c = some pid)).foldl (fun s c => s.setCluster c (f (s.cluster c))) s

/-- A write of MTBASE empties the method caches (R341). Both halves of a paired partition hold its value (R458). -/
def State.writeMtbase (s : State) (pid : Nat) (v : Word) : State :=
  ((s.setPart pid { s.part pid with mtbase := v &&& csrMask 0x051 }).onClusters pid fun c => { c with mcache := [] }).toPeer pid
    (.peerRegister pid 0x051 (v &&& csrMask 0x051))

/-- The cycle from which a SLOTMODE write governs (R234). -/
def slotFrom (cycle : Nat) : Nat := (cycle + 4 + 15) / 16 * 16

/-- SLOTMODE writes that govern by now take effect. -/
def Core.slotSwitch (k : Core) (cycle : Nat) : Core :=
  match (k.slotNext.filter fun e => decide (e.1 ≤ cycle)).getLast? with
  | none => k
  | some e => { k with slotFixed := e.2, slotNext := k.slotNext.filter fun e => decide (cycle < e.1) }

/-- A write of SLOTMODE recorded. -/
def Core.writeSlotmode (k : Core) (cycle : Nat) (v : Word) : Core :=
  { k with slotNext := k.slotNext ++ [(slotFrom cycle, v.getLsbD 0)] }

/-- A core-scope write leaves the old value to be seen by the other strands of the core for 4 cycles. -/
def State.keepOld (s : State) (n : Nat) : State :=
  let k := s.myCore
  s.setMyCore { k with csrOld := (k.csrOld.filter fun o => decide (s.cycle < o.expires)) ++
    [{ expires := s.cycle + 4, num := n, val := csrNow s n, writer := s.cur % 16 }] }

/-- The strand's own registers. -/
def Strand.writeCsr (t : Strand) (n : Nat) (v : Word) : Strand :=
  match n with
  | 0x000 => { t with tcause := v }
  | 0x001 => { t with tepc := v }
  | 0x002 => { t with tval := v }
  | 0x003 => { t with tcap := v }
  | 0x005 => { t with repdone := v.setWidth 32, bskip := v.getLsbD 32 }
  | 0x006 => { t with trep := v.setWidth 32 }
  | 0x018 => { t with fflags := v.setWidth 8 }
  | 0x019 => { t with frm := v.setWidth 2 }
  | 0x01A => { t with schk := v.getLsbD 0 }
  | n => if 0x078 ≤ n ∧ n < 0x07C then { t with bkpt := sset 0 t.bkpt (n - 0x078) v } else t

/-- The RW fields of a register take the value; every other field ignores it (R4). -/
def csrWrite (n : Nat) (x : Word) (s : State) : Except Stop State :=
  let v := x &&& csrMask n
  match n with
  | 0x01B => .ok ((s.keepOld n).setMyCore { (s.keepOld n).myCore with mflags := v.setWidth 8 })
  | 0x020 => .ok ((s.keepOld n).setMyCore ((s.keepOld n).myCore.writeSlotmode s.cycle v))
  | 0x021 => .ok ((s.keepOld n).setMyCore { (s.keepOld n).myCore with admitMask := v.setWidth 16 })
  | 0x022 => (writeL1cfg v s).map fun s' =>
      s'.setMyCore { s'.myCore with csrOld := (s.keepOld n).myCore.csrOld }
  | 0x051 => .ok (match s.pidOf s.cur with
    | some pid => s.writeMtbase pid v
    | none => s)
  | 0x052 => .ok ((s.onPart fun p => { p with otbase := v }).toPeer ((s.pidOf s.cur).getD 0) (.peerRegister ((s.pidOf s.cur).getD 0) n v))
  | 0x054 => .ok (s.onPart fun p => { p with pmon := v })
  | 0x058 => .ok (s.writeWmask (v.setWidth 16))
  | n => .ok (s.setMe (s.me.writeCsr n v))

/-- The number in a CSR instruction. -/
def csrNum (a : IArgs) : Nat := a.imm.toNat

/-- Its register holds capabilities (R47). -/
def csrIsCap (n : Nat) : Bool := decide (n = csrTVEC) || decide (n = csrCONVPOOL)

/-- The word of a CSR instruction. -/
def csrWord (f3 : Nat) (a : IArgs) : Word := BitVec.ofNat 64 (encI 0x3F f3 a)

/-- The checks of R114 and R46. `f3` selects the instruction, `reg` is its register field. -/
def csrPre (f3 : Nat) (reg : Nat) (a : IArgs) (s : State) : Except Stop Unit := do
  let n := csrNum a
  need (csrKnown n) .illegal (csrWord f3 a) 0
  need (!(csrIsCap n && decide (2 ≤ f3))) .illegal (csrWord f3 a) 0
  need (!(decide (n = csrTVEC) && decide (reg = 31))) .illegal (csrWord f3 a) 0
  need (!(csrPriv n) || s.me.sys) .priv (BitVec.ofNat 64 n) 0
  need (!(decide (n = csrADMIT) && decide (f3 ≠ 0)) || decide (s.cur % 16 = 0)) .priv (BitVec.ofNat 64 n) 0

/-- CSRR. -/
def effCsrr (a : IArgs) (s : State) : Except Stop State :=
  let n := csrNum a
  if n = csrTVEC then .ok ((s.putC latAlu a.rd s.myPart.tvecCode).putC latAlu (a.rd.val + 1) s.myPart.tvecData)
  else if n = csrCONVPOOL then .ok (s.putC latAlu a.rd s.myPart.convpool)
  else .ok (s.putX latAlu a.rd (csrSeen s n))

/-- CSRW. -/
def effCsrw (a : IArgs) (s : State) : Except Stop State :=
  let n := csrNum a
  let t := s.me
  if n = csrTVEC then .ok (s.onPart fun p => { p with tvecCode := t.readC a.rs1, tvecData := t.readC (a.rs1.val + 1) })
  else if n = csrCONVPOOL then
    .ok ((s.onPart fun p => { p with convpool := t.readC a.rs1 }).toPeer ((s.pidOf s.cur).getD 0)
      (.peerConvpool ((s.pidOf s.cur).getD 0) (t.readC a.rs1)))
  else csrWrite n (t.readX a.rs1) s

/-- CSRS. -/
def effCsrs (a : IArgs) (s : State) : Except Stop State :=
  csrWrite (csrNum a) (csrNow s (csrNum a) ||| s.me.readX a.rs1) s

/-- CSRC. -/
def effCsrc (a : IArgs) (s : State) : Except Stop State :=
  csrWrite (csrNum a) (csrNow s (csrNum a) &&& ~~~(s.me.readX a.rs1)) s

/-- The registers of a CSR instruction's register field. -/
def csrRegs (a : IArgs) (r : Nat) : List RegRef :=
  if csrNum a = csrTVEC then [rc r, rc (r + 1)] else if csrNum a = csrCONVPOOL then [rc r] else [rx r]

/-- CSRR as the issue logic sees it. -/
def bodyCsrr (a : IArgs) : Body :=
  { reads := [], writes := csrRegs a a.rd, lat := latAlu, sc := a.sc, pre := csrPre 0 a.rd a, eff := fun _ => effCsrr a }
/-- CSRW. -/
def bodyCsrw (a : IArgs) : Body :=
  { reads := csrRegs a a.rs1, sc := a.sc, pre := csrPre 1 a.rs1 a, eff := fun _ => effCsrw a }
/-- CSRS. -/
def bodyCsrs (a : IArgs) : Body := { reads := [rx a.rs1], sc := a.sc, pre := csrPre 2 a.rs1 a, eff := fun _ => effCsrs a }
/-- CSRC. -/
def bodyCsrc (a : IArgs) : Body := { reads := [rx a.rs1], sc := a.sc, pre := csrPre 3 a.rs1 a, eff := fun _ => effCsrc a }

end Sys2Proof.Machine
end

