-- ==== Sys2Proof/Machine/Strands.lean ====
section
/-! DEFINITION. Starting, ending, holding and waking strands (R52, R236 to R245). -/

namespace Sys2Proof.Machine

/-- The privilege check of the head strand's instructions (R236). -/
def headOnly (s : State) : Except Stop Unit := need (decide (s.cur % 16 = 0)) .priv 0 0

/-- A context of the current strand's core. -/
def State.context (s : State) (k : Nat) : Nat := coreOf s.cur * 16 + k

/-- A context made Free: nothing of its registers remains but the breakpoints (R53, Table 1.13). -/
def Strand.freed (t : Strand) : Strand := { Strand.reset with bkpt := t.bkpt, frameSel := t.frameSel }

/-- A strand that starts at offset 0 of a code capability: Table 1.13 with every argument register zero. -/
def Strand.start (t : Strand) (pcc : Cap) (cycle : Nat) : Strand :=
  { t.freed with pcc := pcc, status := .running, nextIssue := cycle + 1 }

/-! SPAWN. -/

/-- A field of the descriptor of Table 9.4. -/
def descField (d : Word) (lo n : Nat) : Nat := d.toNat / 2 ^ lo % 2 ^ n

/-- A range of registers of a class. -/
def regRange (k : RegCls) (lo hi : Nat) : List RegRef := (List.range (hi + 1 - lo)).map fun i => { cls := k, num := lo + i }

/-- The registers that a descriptor copies. -/
def spawnCopies (d : Word) : List RegRef :=
  (if d.getLsbD 35 then regRange .x (descField d 5 5) (descField d 10 5) else [])
    ++ (if d.getLsbD 36 then regRange .c (descField d 15 5) (descField d 20 5) else [])
    ++ (if d.getLsbD 37 then regRange .v (descField d 25 5) (descField d 30 5) else [])

/-- The registers that the child awaits. -/
def spawnAwaits (d : Word) : List RegRef :=
  match descField d 38 2 with
  | 0 => []
  | 1 => regRange .x (descField d 40 5) (descField d 45 5)
  | 2 => regRange .c (descField d 40 5) (descField d 45 5)
  | _ => regRange .v (descField d 40 5) (descField d 45 5)

/-- DescriptorCheck of R237. -/
def spawnOk (d : Word) : Bool :=
  decide (d.toNat / 2 ^ 50 = 0) && !(d.getLsbD 4) && decide (descField d 0 4 ≠ 0)
    && (!(d.getLsbD 35) || decide (descField d 5 5 ≤ descField d 10 5))
    && (!(d.getLsbD 36) || decide (descField d 15 5 ≤ descField d 20 5))
    && (!(d.getLsbD 37) || decide (descField d 25 5 ≤ descField d 30 5))
    && (decide (descField d 38 2 = 0) || decide (descField d 40 5 ≤ descField d 45 5))
    && (spawnAwaits d).all fun r => !r.fixed && !(spawnCopies d).contains r

/-- EntryCheck of R238. -/
def entryCheck (s : State) (e : Cap) (reg : Nat) : Except Stop Unit := do
  need e.tag .capTag 0 reg
  need (decide (e.otype = 0)) .capSeal (BitVec.ofNat 64 e.otype) reg
  checkGen s s.myPart e reg
  need (e.has 5) .capPerm 0x20 reg
  need (codeShape e) .capFormat e.word1 reg

/-- A register set empty. -/
def Strand.setEmpty (t : Strand) (r : RegRef) : Strand :=
  match r.cls with
  | .x => { t with emptyX := maskSet t.emptyX r.num }
  | .c => { t with emptyC := maskSet t.emptyC r.num }
  | .v => { t with emptyV := maskSet t.emptyV r.num }
  | .p => t

/-- The child's registers: copies of the parent's, and the await range empty. -/
def Strand.inherit (t parent : Strand) (d : Word) : Strand :=
  (spawnAwaits d).foldl Strand.setEmpty ((spawnCopies d).foldl (fun t r => t.setReg r.num (parent.value r)) t)

/-- Ordinary reads of registers that an operand names (R21, R63, R64, R212). -/
def readThem (rs : List RegRef) (s : State) : Except Stop State := do
  if rs.any fun r => decide (r.cls = .v) && s.me.vbusy.getLsbD r.num then .error .hold
  else
    checkShort s.me rs s.cycle
    let s ← rebuildAll rs s
    if rs.all s.me.isFull then .ok s else .error (.park (.empty (s.me.empties rs)))

/-- SPAWN's checks, and then its reads of the registers that it copies. -/
def spawnReads (a : RArgs) (s : State) : Except Stop State := do
  let d := s.me.readX a.rs2
  need (spawnOk d) .illegal (BitVec.ofNat 64 (encR 0x3C 0 a)) 0
  entryCheck s (s.me.readC a.rs1) a.rs1
  readThem (spawnCopies d) s

/-- SPAWN, its checks passed and the registers that it copies read. -/
def effSpawn (a : RArgs) (s : State) : Except Stop State :=
  let d := s.me.readX a.rs2
  let e := s.me.readC a.rs1
  let k := s.context (descField d 0 4)
  let t := s.strand k
  if t.status ≠ .free then .ok (s.putX 0 a.rd 1)
  else if s.myCore.admitMask.getLsbD (descField d 0 4) then .ok (s.putX 0 a.rd 2)
  else
    let child := { (t.start e s.cycle).inherit s.me d with child := true, task := s.me.task }
    .ok ((s.setStrand k child).putX 0 a.rd 0)

/-! REAP. -/

/-- A context holds an unreaped child. -/
def Strand.isChild (t : Strand) : Bool := t.child && decide (t.status ≠ .free)

/-- REAP. -/
def effReap (a : RArgs) (s : State) : Except Stop State := do
  let x := (s.me.readX a.rs1).toNat
  let k := s.context (x % 16)
  need (decide (x < 16) && decide (x ≠ 0) && (s.strand k).isChild) .illegal (BitVec.ofNat 64 (encR 0x3C 1 a)) 0
  if (s.strand k).status = .ended then
    .ok ((s.setStrand k (s.strand k).freed).putX 0 a.rd (s.strand k).endStatus)
  else .error (.park .reap)

/-! YIELD and WAKE. -/

/-- YIELD (R242). -/
def effYield (_a : RArgs) (s : State) : Except Stop State :=
  let t := s.me
  if t.token then .ok (s.setMe { t with token := false }) else .ok (s.setMe { t with status := .asleep })

/-- A WAKE acts on a strand of this card for a partition; what it returns (Table of R243). Of a Stopped context that PARK holds the table
names both Held and Stopped; here it is Stopped: 2, and no token (DESIGN CHOICE, log 76). -/
def State.wake (s : State) (pid : Option Nat) (n : Nat) : State × Nat :=
  let t := s.strand n
  if pid.isNone ∨ s.pidOf n ≠ pid then (s, 2)
  else match t.status with
    | .free => (s, 2)
    | .ended => (s, 2)
    | .stopped => (s, 2)
    | .asleep => (s.setStrand n { t with status := .running, nextIssue := max t.nextIssue (s.cycle + 1) }, 0)
    | _ => (s.setStrand n { t with token := true }, 1)

/-- WAKE; while the Seam retrains, one of the peer card waits (R459). What a wake of a strand of the peer card returns is free among 0 to 2 (log 4). -/
def effWake (a : RArgs) (s : State) : Except Stop State := do
  let x := (s.me.readX a.rs1).toNat
  need (decide (x < 2 ^ 13)) .illegal (BitVec.ofNat 64 (encR 0x3C 4 a)) 0
  let pid := s.pidOf s.cur
  if bitOf x 12 then
    match pid with
    | some p =>
      if s.seam = .retraining ∧ (s.part p).paired.isSome then .error (.park .retry)
      else if s.seam = .up ∧ (s.part p).paired.isSome then
        let r := Config.freeChoice s.freeCtr 2 % 3
        .ok ({ s with freeCtr := s.freeCtr + 1, outbox := s.outbox ++ [Reply.peerWake p (x % 2 ^ 12)] }.putX 0 a.rd (BitVec.ofNat 64 r))
      else .ok (s.putX 0 a.rd 2)
    | none => .ok (s.putX 0 a.rd 2)
  else
    let r := s.wake pid (x % 2 ^ 12)
    .ok (r.1.putX 0 a.rd (BitVec.ofNat 64 r.2))

/-! PARK. -/

/-- The contexts of a mask, as strands of the current core. -/
def State.masked (s : State) (m : Nat) : List Nat := ((List.range 16).filter (bitOf m)).map s.context

/-- A strand that PARK may hold (R244). -/
def Strand.holdable (t : Strand) : Bool := decide (t.status ≠ .free) && decide (t.status ≠ .ended)

/-- A TWAIT that a hold takes issues again (R354). -/
def Wait.held (w : Wait) : Wait :=
  match w with
  | .launch _ _ _ _ => .retry
  | w => w

/-- A context held: a parked arrival, and a wait at the KMU or a merge slot, is withdrawn and issues again (R270, R361, R373). A REP between
repetitions issues again when the hold ends (R73, R106). -/
def State.holdStrand (s : State) (n : Nat) : State :=
  let t := s.strand n
  if t.holdable = false then s
  else
    let core := coreOf n
    let k := s.core core
    let c := s.cluster (clusterOf n)
    let taken := (k.arrivals.any fun r => decide (r.strand = n)) || (c.kvWait.any fun r => decide (r.strand = n))
      || c.mgWait.any fun r => decide (r.strand = n)
    let s := s.setCore core { k with arrivals := k.arrivals.filter fun r => decide (r.strand ≠ n) }
    let s := s.setCluster (clusterOf n) (c.withdraw n)
    s.setStrand n { t with hold := true, wait := if taken then .retry else t.wait.held, rep := none }

/-- The mask of held contexts. -/
def State.heldMask (s : State) : Nat :=
  (List.range 16).foldl (fun m k => m + (s.strand (s.context k)).hold.toNat * 2 ^ k) 0

/-- PARK: it completes when no context of its mask is inside an MMA. -/
def effPark (a : RArgs) (s : State) : Except Stop State := do
  let x := (s.me.readX a.rs1).toNat
  need (decide (x < 2 ^ 17) && !(bitOf x 0)) .illegal (BitVec.ofNat 64 (encR 0x3C 3 a)) 0
  let who := s.masked (x % 2 ^ 16)
  if bitOf x 16 then
    let s := who.foldl (fun s n => s.setStrand n { s.strand n with hold := false }) s
    .ok (s.putX 0 a.rd (BitVec.ofNat 64 s.heldMask))
  else
    let s := who.foldl State.holdStrand s
    if who.any fun n => decide ((s.strand n).status = .inMma) then .ok (s.setMe (s.me.parked .retry))
    else .ok (s.putX 0 a.rd (BitVec.ofNat 64 s.heldMask))

/-! As the issue logic sees them. -/

/-- SPAWN. -/
def bodySpawn (a : RArgs) : Body :=
  { reads := [rc a.rs1, rx a.rs2], sync := if a.sr then some (rc a.rs1) else none, writes := [rx a.rd], sc := a.sc,
    pre := headOnly, late := spawnReads a, eff := fun _ => effSpawn a }
/-- An instruction with one x operand that returns a status. -/
def bodyStatus (a : RArgs) (pre : State → Except Stop Unit) (eff : State → Except Stop State) : Body :=
  { reads := [rx a.rs1], sync := if a.sr then some (rx a.rs1) else none, writes := [rx a.rd], sc := a.sc, pre := pre,
    eff := fun _ => eff }
/-- REAP. -/
def bodyReap (a : RArgs) : Body := bodyStatus a headOnly (effReap a)
/-- YIELD. -/
def bodyYield (a : RArgs) : Body := { reads := [], sc := a.sc, eff := fun _ => effYield a }
/-- PARK. -/
def bodyPark (a : RArgs) : Body := bodyStatus a headOnly (effPark a)
/-- WAKE. -/
def bodyWake (a : RArgs) : Body := bodyStatus a (fun _ => .ok ()) (effWake a)

end Sys2Proof.Machine
end

