-- ==== Sys2Proof/Machine/Image.lean ====
section
/-! DEFINITION. Strand images (R246) and the register cache (R247 to R249). The registers of a strand are held in `Strand`, whose lines the cache
names; an image in memory is what the cache has written back. -/

namespace Sys2Proof.Machine

/-- The number of cores of a partition's clusters below a core; offline cores count. -/
def corePos (s : State) (pid core : Nat) : Nat :=
  8 * ((List.range (core / 8)).filter fun c => decide (s.pidOfCluster c = some pid)).length + core % 8

/-- The strand area of a context (R246, Table 21.5): the partition that holds it and the physical address. -/
def strandArea (s : State) (n : Nat) : Option (Nat × Nat) :=
  (s.pidOf n).map fun pid =>
    (pid, (s.part pid).desc.imgbase.toNat / 2 ^ 20 * 2 ^ 20 + 2 ^ 18 * corePos s pid (coreOf n) + 2 ^ 14 * (n % 16))

/-! The layout of Table 9.5. -/

/-- Lines of an image that hold anything. -/
def imageLines : Nat := 56

/-- Eight bytes of each of the masks of RFLAGS: two masks of 32 bits. -/
def rflags (t : Strand) (k : Nat) : Nat :=
  let pair (a b : BitVec 32) : Nat := a.toNat + b.toNat * 2 ^ 32
  let tied (lo : Nat) : BitVec 32 := (List.range 32).foldl (fun m i => if sget 0 t.ties (lo + i) = 0 then m else maskSet m i) 0
  match k with
  | 0 => pair (~~~t.emptyX) (~~~t.emptyC)
  | 1 => pair (~~~t.emptyV) t.zor
  | 2 => pair (tied 0) (tied 32)
  | _ => pair t.dropX t.dropV

/-- TIES as one number: three bits for each register, its slot. -/
def tiesNat (t : Strand) : Nat := (List.range 64).foldl (fun n i => n + (sget 0 t.ties i - 1) % 8 * 2 ^ (3 * i)) 0

/-- RCNT as one number. -/
def rcntNat (t : Strand) : Nat := (List.range 8).foldl (fun n i => n + (t.recipe i).length % 256 * 2 ^ (8 * i)) 0

/-- TSD: which frames are trap frames, and the depth. Frame 0 is at the bottom. -/
def tsdNat (t : Strand) : Nat :=
  (List.range 32).foldl (fun n f => n + (match t.frames.reverse[f]? with
    | some r => r.trap.toNat
    | none => 0) * 2 ^ f) 0 + t.frames.length % 64 * 2 ^ 32

/-- The code of a state in the order of Table 9.1; Held, 6, is a bit of its own in CTXST, beside the state that the hold found (log 85). -/
def CtxState.code (c : CtxState) : Nat :=
  match c with
  | .free => 0
  | .running => 1
  | .parked => 2
  | .inMma => 3
  | .asleep => 4
  | .reaping => 5
  | .ended => 7
  | .stopped => 8

/-- CTXST: state code, wake token, held, parent context, which is the head strand's, 0. -/
def ctxstNat (t : Strand) : Nat := t.status.code + t.token.toNat * 2 ^ 4 + t.hold.toNat * 2 ^ 5

/-- Word `k` of 8 bytes of a strand's image. -/
def imageWord (t : Strand) (k : Nat) : Nat :=
  if k < 32 then (t.readX k).toNat
  else if k < 288 then bitsAt (t.readC ((k - 32) / 8)).bits.toNat (64 * ((k - 32) % 8)) 64
  else if k < 800 then bitsAt (sget 0 t.v ((k - 288) / 16)).toNat (64 * ((k - 288) % 16)) 64
  else if k < 816 then bitsAt (t.readP ((k - 800) / 2)).toNat (64 * ((k - 800) % 2)) 64
  else if k < 820 then rflags t (k - 816)
  else if k < 823 then bitsAt (tiesNat t) (64 * (k - 820)) 64
  else if k < 832 then 0
  else if k < 848 then
    let ws := t.recipe ((k - 832) / 2)
    let j := 2 * ((k - 832) % 2)
    ws.getD j 0 % 2 ^ 32 + ws.getD (j + 1) 0 % 2 ^ 32 * 2 ^ 32
  else if k = 848 then rcntNat t
  else if k = 849 then t.trep.toNat
  else if k < 864 then 0
  else if k < 872 then bitsAt t.pcc.bits.toNat (64 * (k - 864)) 64
  else match k - 872 with
    | 0 => lowBits 64 t.pc
    | 1 => t.tcause.toNat
    | 2 => t.tepc.toNat
    | 3 => t.tval.toNat
    | 4 => t.tcap.toNat
    | 5 => t.tstat.toNat
    | 6 => t.fflags.toNat
    | 7 => t.frm.toNat
    | 8 => t.schk.toNat
    | 9 => (sget 0 t.bkpt 0).toNat
    | 10 => (sget 0 t.bkpt 1).toNat
    | 11 => (sget 0 t.bkpt 2).toNat
    | 12 => (sget 0 t.bkpt 3).toNat
    | 13 => tsdNat t
    | 14 => ctxstNat t
    | _ => 0

/-- A line of a strand's image as one number. -/
def imageLine (t : Strand) (l : Nat) : Nat := (List.range 16).foldl (fun n i => n + imageWord t (16 * l + i) * 2 ^ (64 * i)) 0

/-- The granule tags of a line: those of its c registers, and PCC's. -/
def imageTags (t : Strand) (l : Nat) : Bool × Bool :=
  if 2 ≤ l ∧ l < 18 then ((t.readC (2 * (l - 2))).tag, (t.readC (2 * (l - 2) + 1)).tag)
  else if l = 54 then (t.pcc.tag, false)
  else (false, false)

/-- The line of a register. -/
def lineOfReg (r : RegRef) : Nat :=
  match r.cls with
  | .x => r.num / 16
  | .c => 2 + r.num / 2
  | .v => 18 + r.num
  | .p => 50

/-- The line of RFLAGS and TIES, and that of PCC, PC and most control registers. -/
def controlLines : List Nat := [51, 54]

/-! Memory. -/

/-- Two granules with their tags written at their home, through its slice; they lie in GDDR7 of this card or nowhere. -/
def State.putLine (s : State) (pid pa v : Nat) (tags : Bool × Bool) : State :=
  match s.place pa with
  | .gddr _ =>
    (((s.l2Request pid none pa (BitVec.allOnes 128) false none).storeCap pa { tag := tags.1, bits := BitVec.ofNat 512 v }).storeCap
      (pa + 64) { tag := tags.2, bits := BitVec.ofNat 512 (v / 2 ^ 512) })
  | _ => s

/-- A line of a strand's image written back. -/
def State.putImage (s : State) (n l : Nat) : State :=
  match strandArea s n with
  | some (pid, at_) => s.putLine pid (at_ + 128 * l) (imageLine (s.strand n) l) (imageTags (s.strand n) l)
  | none => s

/-- A line of a strand's image asked of its home slice. -/
def State.askImage (s : State) (n l : Nat) : State :=
  match strandArea s n with
  | some (pid, at_) => s.l2Request pid none (at_ + 128 * l) 0 false none
  | none => s

/-! Victims (R248). -/

/-- Lines of 128 bytes in the register cache. -/
def rcacheLines : Nat := 512

/-- The context that owns a line of the register cache, and which line of its image it is. -/
def RegLine.owner (e : RegLine) (core : Nat) : Nat := 16 * core + e.key / 64
/-- Which line of the image. -/
def RegLine.line (e : RegLine) : Nat := e.key % 64

/-- A context has no strand whose registers matter. -/
def Strand.gone (t : Strand) : Bool := decide (t.status = .free) || decide (t.status = .ended)

/-- A line holds a tied v register that the register cache may drop (R211). -/
def dropOf (s : State) (core : Nat) (e : RegLine) : Option RegRef :=
  let t := s.strand (e.owner core)
  if 18 ≤ e.line ∧ e.line < 50 then
    let v := rv (e.line - 18)
    if t.mayDrop v && !(t.isDropped v) then some v else none
  else none

/-- The victim among a core's lines, most recently used first. -/
def rcacheVictim (s : State) (core : Nat) (lines : List RegLine) : Option RegLine :=
  let old := lines.reverse
  match old.find? fun e => (s.strand (e.owner core)).gone with
  | some e => some e
  | none => match old.find? fun e => (s.strand (e.owner core)).hold with
    | some e => some e
    | none => match old.find? fun e => (dropOf s core e).isSome with
      | some e => some e
      | none => old.head?

/-- A line leaves the register cache: one of a context without a strand is forgotten, a tied v register that may be dropped is dropped, and
what has been written is written back. -/
def State.evict (s : State) (core : Nat) (e : RegLine) : State :=
  let n := e.owner core
  let t := s.strand n
  let s := s.setCore core { s.core core with rcache := (s.core core).rcache.erase e }
  if t.gone then s
  else match t.hold, dropOf s core e with
    | false, some r => s.drop n r
    | _, _ => if e.written then s.putImage n e.line else s

/-- Room for one more line. -/
def State.roomFor (s : State) (core : Nat) : State :=
  if (s.core core).rcache.length < rcacheLines then s
  else match rcacheVictim s core (s.core core).rcache with
    | some e => s.evict core e
    | none => s

/-- A line of a context becomes the most recently used one; an absent line is fetched through the L2, or made without reading memory. -/
def State.bringLine (s : State) (n l : Nat) (fetch write : Bool) : State :=
  let core := coreOf n
  let key := 64 * (n % 16) + l
  match (s.core core).rcache.find? fun e => decide (e.key = key) with
  | some e => s.setCore core { s.core core with rcache := { e with written := e.written || write } :: (s.core core).rcache.erase e }
  | none =>
    let s := s.roomFor core
    let s := if fetch then s.askImage n l else s
    s.setCore core { s.core core with rcache := { key := key, written := write } :: (s.core core).rcache }

/-- Lines of a context brought in, or used. -/
def State.useLines (s : State) (n : Nat) (ls : List Nat) : State := ls.foldl (fun s l => s.bringLine n l true false) s

/-- Lines of a context are in the register cache. -/
def State.hasLines (s : State) (n : Nat) (ls : List Nat) : Bool :=
  ls.all fun l => (s.core (coreOf n)).rcache.any fun e => decide (e.key = 64 * (n % 16) + l)

/-- The lines of a context discarded without being written back. -/
def State.discardLines (s : State) (n : Nat) : State :=
  let k := s.core (coreOf n)
  if k.rcache.any fun e => decide (e.key / 64 = n % 16) then
    s.setCore (coreOf n) { k with rcache := k.rcache.filter fun e => decide (e.key / 64 ≠ n % 16) }
  else s

/-- The lines of a new strand, made without reading memory (R247). -/
def State.allocLines (s : State) (n : Nat) : State := (List.range imageLines).foldl (fun s l => s.bringLine n l false true) s

/-! What steps do to the caches and to the frames. -/

/-- The lines in which two states of a strand may differ. -/
def mayDiffer (t u : Strand) : List Nat :=
  (if t.x = u.x then [] else [0, 1]) ++ (if t.c = u.c then [] else (List.range 16).map (· + 2))
    ++ (if t.v = u.v then [] else (List.range 32).map (· + 18)) ++ (if t.p = u.p then [] else [50]) ++ [51]
    ++ (if t.recipes = u.recipes then [] else [52]) ++ [53, 54, 55]

/-- The lines in which two states of a strand differ. -/
def changedLines (t u : Strand) : List Nat :=
  (mayDiffer t u).filter fun l => decide (imageLine t l ≠ imageLine u l) || decide (imageTags t l ≠ imageTags u l)

/-- How many frames of two trusted stacks, from the bottom, agree. -/
def sameFrames (a b : List Frame) : Nat := ((a.reverse.zip b.reverse).takeWhile fun e => decide (e.1 = e.2)).length

/-- Word `k` of 8 bytes of a frame (Table 6.5). -/
def frameWord (f : Frame) (k : Nat) : Nat :=
  if k < 8 then bitsAt f.pcc.bits.toNat (64 * k) 64
  else if k < 16 then bitsAt f.c30.bits.toNat (64 * (k - 8)) 64
  else if k < 24 then bitsAt f.c31.bits.toNat (64 * (k - 16)) 64
  else if k = 24 then lowBits 64 f.retoff
  else if k = 25 then f.repsave.toNat
  else 0

/-- Half of a frame as one number. -/
def frameHalf (f : Frame) (h : Nat) : Nat := (List.range 16).foldl (fun n i => n + frameWord f (16 * h + i) * 2 ^ (64 * i)) 0

/-- Frame `i` from the bottom written at its place, through the L2 without the register cache (R246, R247). -/
def State.putFrame (s : State) (n i : Nat) (f : Frame) : State :=
  match strandArea s n with
  | some (pid, at_) =>
    let pa := at_ + 0x2000 + 256 * i
    (s.putLine pid pa (frameHalf f 0) (f.pcc.tag, f.c30.tag)).putLine pid (pa + 128) (frameHalf f 1) (f.c31.tag, false)
  | none => s

/-- Frame `i` from the bottom read. -/
def State.askFrame (s : State) (n i : Nat) : State :=
  match strandArea s n with
  | some (pid, at_) =>
    let pa := at_ + 0x2000 + 256 * i
    (s.l2Request pid none pa 0 false none).l2Request pid none (pa + 128) 0 false none
  | none => s

/-- The frames popped between two states of a trusted stack are read, the frames pushed are written. -/
def State.followFrames (s : State) (n : Nat) (old new : List Frame) : State :=
  if old = new then s
  else
    let keep := sameFrames old new
    let s := ((List.range old.length).drop keep).foldl (fun s i => s.askFrame n i) s
    ((new.reverse.zip (List.range new.length)).drop keep).foldl (fun s e => s.putFrame n e.2 e.1) s

/-- What has become of strand `n` since `before`: a new strand has its lines made, one that is gone has them discarded, and a line that has
changed is in the register cache, written (R247). A write of the value that a line holds already leaves no mark (log 85). -/
def followStrand (before : State) (n : Nat) (s : State) : State :=
  let t := before.strand n
  let u := s.strand n
  if u.gone then (if t.gone then s else s.discardLines n)
  else if t.gone then s.allocLines n
  else if t = u then s
  else (((changedLines t u).foldl (fun s l => s.bringLine n l true true) s).followFrames n t.frames u.frames)

/-- The register caches and the strand areas follow what has become of the strands since `before`. -/
def State.follow (s before : State) : State :=
  if s.strands = before.strands then s
  else ((before.strands ++ s.strands).map (·.1)).eraseDups.foldl (fun s n => followStrand before n s) s

end Sys2Proof.Machine
end

