-- ==== Sys2Proof/Machine/Integrity.lean ====
section
/-! DEFINITION. Fields of the object table, and the decryption of sealed blocks (Table 21.3, R293 to R295,
R429, R449, R451). -/

namespace Sys2Proof.Machine

/-- LENGTH of an entry. -/
def objLength (s : State) (p : Partition) (i : Nat) : Nat := objWord s p i 1 % 2 ^ 55
/-- BASE of an entry. -/
def objBase (s : State) (p : Partition) (i : Nat) : Nat := objWord s p i 0 % 2 ^ 55
/-- INTEG of an entry. -/
def objInteg (s : State) (p : Partition) (i : Nat) : Bool := bitOf (objWord s p i 2) 10
/-- ENC of an entry. -/
def objEnc (s : State) (p : Partition) (i : Nat) : Bool := bitOf (objWord s p i 2) 11
/-- ZFREE of an entry. -/
def objZfree (s : State) (p : Partition) (i : Nat) : Bool := bitOf (objWord s p i 2) 12
/-- The record of the sealed block at an address of a bank. -/
def Core.blockOf (k : Core) (b off : Nat) : Option BlockRec := sget none k.blocks (256 * b + off / 256)

/-- R294, steps 1 to 3, on the block that holds a scratchpad address: its record when it verifies. -/
def sealedBlock (s : State) (p : Partition) (core pa : Nat) : Option BlockRec :=
  match s.bankOf pa with
  | none => none
  | some (_, b) =>
    match (s.core core).blockOf b (pa % 2 ^ 16) with
    | none => none
    | some r =>
      if r.objid < objCount p ∧ objState s p r.objid = 0 ∧ objEnc s p r.objid = true
          ∧ blockMac s p (pa / 256 * 256) r.va r.objid = some r.mac then some r else none

/-- The counter block of Table 11.8 for unit `j`. -/
def counterBlock (s : State) (p : Partition) (r : BlockRec) (j : Nat) : BitVec 128 :=
  let ver := match versionSlot s p r.objid with
    | some n => (s.version n).toNat
    | none => 0
  let blk := ((r.va - objBase s p r.objid : Nat)) / 256
  BitVec.ofNat 128 (r.objid % 2 ^ 20 * 2 ^ 108 + ver * 2 ^ 60 + blk % 2 ^ 47 * 2 ^ 13 + j)

/-- A plaintext byte of a verified block: AES-256 in counter mode (R294, step 4). -/
def plainByte (s : State) (p : Partition) (r : BlockRec) (pa : Nat) : Nat :=
  let j := pa % 256 / 16
  let key := (Config.aes256 p.dataKey (counterBlock s p r j)).toNat / 2 ^ (8 * (pa % 16)) % 256
  (s.byte pa).toNat ^^^ key

end Sys2Proof.Machine
end

