-- ==== Sys2Proof/Machine/Matrix.lean ====
section
/-! DEFINITION. The matrix engine (R274 to R296): acceptance into MQ, the start conditions of Table 11.4, and what an operation does
row by row and at its completion. -/

namespace Sys2Proof.Machine

/-! Operands (R283, Table 11.5). -/

/-- Extent of dimension `k`, 1 at and above the rank. -/
def ext1 (c : Cap) (k : Nat) : Nat := if k < c.rank then c.extent k else 1

/-- What MWLOAD accepts at check 5. -/
def mwShape (c : Cap) (sealed_ : Bool) : Bool :=
  decide (c.sparse = 0)
    && (if sealed_ then decide (c.fmt = 0x11) || decide (c.fmt = 0x14) || decide (c.fmt = 0x15) || decide (c.fmt = fmtI4X)
        else decide (c.fmt = 0x11))
    && decide (1 ≤ c.extent 0) && decide (c.extent 0 ≤ 32) && decide (1 ≤ ext1 c 1) && decide (ext1 c 1 ≤ 32)

/-- What the scale tensor of an MWLOAD.E meets at check 5. -/
def scaleShape (c src : Cap) : Bool :=
  decide (c.sparse = 0) && decide (c.fmt = 0x11) && decide ((src.extent 0 + 31) / 32 ≤ c.extent 0)
    && decide (ext1 src 1 ≤ ext1 c 1)

/-- What MMA accepts: `t` is its flag T. -/
def mmaShape (c : Cap) (t : Bool) : Bool :=
  let k := if t then ext1 c 1 else c.extent 0
  decide (c.sparse = 0) && decide (c.fmt = 0x11) && decide (1 ≤ k) && decide (k ≤ 32)

/-- What MSTORE accepts. -/
def mstoreShape (c : Cap) : Bool :=
  decide (c.sparse = 0)
    && (decide (c.fmt = 0x12) || decide (c.fmt = 0x11) || decide (c.fmt = 0x10) || decide (c.fmt = 0x14) || decide (c.fmt = 0x15))
    && decide (1 ≤ c.extent 0) && decide (c.extent 0 ≤ 32) && decide (1 ≤ ext1 c 1) && decide (ext1 c 1 ≤ 128)

/-- The byte address of an element, an I4X one's that of its byte: what TVAL holds where the element fails (DESIGN CHOICE, log 90). -/
def elemByte (c : Cap) (idx : List Int) : Int := if c.fmt = fmtI4X then elemAddr c idx / 2 else elemAddr c idx

/-- One element of a matrix operand: a scratchpad bank of the issuing core whose FMT is the capability's, sealed exactly for MWLOAD.E. -/
def matElem (s : State) (c : Cap) (reg : Nat) (use : Use) (sealed_ : Bool) (idx : List Int) : Except Fail Nat :=
  let ad := elemByte c idx
  let w : Word := BitVec.ofInt 64 ad
  let acc : Acc := { use := use, align := max 1 (esize c.fmt), byteMode := false, strand := none, sealedOk := sealed_ }
  match boundElem c idx reg with
  | .error e => .error e
  | .ok _ =>
    if ad % (acc.align : Int) ≠ 0 then failTrap 9 .align w reg
    else if ad < 0 then failTrap 10 .pageFault w reg
    else match translate s (s.pidOf s.cur) ad.toNat use with
      | .error e => .error { order := e.order, stop := .trap (e.trap (s.pidOf s.cur) ad.toNat reg) }
      | .ok (_, pa) =>
        match s.bankOf pa with
        | none => failTrap 11 .pageAttr w reg
        | some (k, b) =>
          if k ≠ coreOf s.cur then failTrap 11 .pageAttr w reg
          else match bankCheck s c reg acc ad.toNat k b with
            | .error e => .error e
            | .ok _ =>
              let f := (s.myCore.bfmtOf b).toNat
              if c.fmt ≠ f % 64 ∨ (sealed_ && !(bitOf f 6)) = true then failTrap 11 .capFormat c.word1 reg else .ok pa

/-- The indices of a tile in traversal order, dimension 0 fastest. -/
def tileIdx (e0 e1 : Nat) : List (List Int) :=
  (List.range e1).flatMap fun j : Nat => (List.range e0).map fun i : Nat => [Int.ofNat i, Int.ofNat j]

/-- The elements of a tile of an operand, in traversal order, or the trap of the first failing check of lowest order (R42). -/
def matTile (s : State) (c : Cap) (reg : Nat) (use : Use) (sealed_ : Bool) (e0 e1 : Nat) : Except Stop (List Nat) :=
  gather ((tileIdx e0 e1).map (matElem s c reg use sealed_))

/-- Accessed and Dirty bits of the pages of a list of virtual addresses. -/
def State.touchVas (s : State) (vas : List Int) (write : Bool) : State :=
  vas.foldl (fun s va => match translate s (s.pidOf s.cur) va.toNat useRead with
    | .ok (l, _) => s.touchLeaf (.core (coreOf s.cur)) ((s.pidOf s.cur).getD 0) va.toNat l write
    | .error _ => s) s

/-- Those of a tile. -/
def State.touchTile (s : State) (c : Cap) (e0 e1 : Nat) (write : Bool) : State :=
  s.touchVas (((tileIdx e0 e1).map (elemByte c)).map fun a => a / 2 ^ 16 * 2 ^ 16).eraseDups write

/-! Acceptance (R277). -/

/-- An operation of the current strand enters MQ; while MQ is full the instruction is held. Its checks come before that: R277 has every check
made when the instruction issues and has it wait, raising nothing, while MQ is full; one that would fail traps at once here (DESIGN CHOICE,
log 80). -/
def State.acceptMat (s : State) (kind : MatKind) (cap : Cap) (reg : Nat) (aux : Option Cap) (pas auxPas : List Nat) :
    Except Stop State :=
  let k := s.myCore
  if 16 ≤ k.mq.length then .error .hold
  else
    let op : MatOp := { seq := k.mqIssued + 1, kind := kind, strand := s.cur, pc := s.me.pc, cap := cap, capReg := reg, aux := aux,
                        pas := pas, auxPas := auxPas, snap := [], start := none, fin := 0, accepted := s.cycle, row := 0,
                        flags := 0, bad := none, held := none }
    .ok (s.setMyCore { k with mq := k.mq ++ [op], mqIssued := k.mqIssued + 1 })

/-- The strand leaves the rotation until its operation completes (R281). -/
def State.intoMma (s : State) : State := s.setMe { s.me with status := .inMma }

/-- The word of a matrix instruction. -/
def matWord (major : Nat) (ca cb xc : Reg) (q f2 : Nat) (h sc : Fin 4) : Word := BitVec.ofNat 64 (encVE major ca cb xc q f2 h sc)

/-- Permissions of sources. -/
def permMatLoad : BitVec 14 := permLD ||| permDMA ||| permMXW

/-- The scale elements of an MWLOAD.E of I4X: one for each row, since a row holds one group at most. Only these are checked, not every element of
the scale tensor (DESIGN CHOICE, log 90). -/
def scaleRows (s : State) (a : EfArgs) (src : Cap) : Except Stop (Cap × List Nat) := do
  need (decide (a.ca.val ≠ 31)) .illegal (matWord 0x34 a.ca a.cb a.xc a.q.val 0 a.h a.sc) 0
  let r := a.ca.val + 1
  let c := s.me.readC r
  check15 s c r permMatLoad (scaleShape c src)
  let pas ← gather ((List.range (ext1 src 1)).map fun j : Nat => matElem s c r useRead true [0, Int.ofNat j])
  .ok (c, pas)

/-- MWLOAD. Every check of its source comes before those of the scale tensor: the spec orders the elements of one operand only (DESIGN CHOICE,
log 80). -/
def effMwload (a : EfArgs) (s : State) : Except Stop State := do
  let t := bitOf a.q.val 0
  let e := bitOf a.q.val 1
  let c := s.me.readC a.ca
  need (!(e && decide (c.fmt = fmtI4X) && decide (a.ca.val = 31))) .illegal
    (matWord 0x34 a.ca a.cb a.xc a.q.val 0 a.h a.sc) 0
  check15 s c a.ca permMatLoad (mwShape c e)
  let pas ← matTile s c a.ca useRead e (c.extent 0) (ext1 c 1)
  let scaled := e && decide (c.fmt = fmtI4X)
  let s ← if scaled then readThem [rc (a.ca.val + 1)] s else .ok s
  let sc ← if scaled then (scaleRows s a c).map fun r => (some r.1, r.2) else .ok (none, [])
  let s ← (s.touchTile c (c.extent 0) (ext1 c 1) false).acceptMat (.mwload t e) c a.ca sc.1 pas sc.2
  .ok (if e then s.intoMma else s)

/-- MZERO. -/
def effMzero (a : EfArgs) (s : State) : Except Stop State := s.acceptMat (.mzero (a.q.val % 4)) Cap.null 0 none [] []

/-- MMA. -/
def effMma (a : EArgs) (s : State) : Except Stop State := do
  let t := bitOf a.cb.val 1
  let n := (s.me.readX a.xc).toNat
  need (decide (1 ≤ n) && decide (n ≤ 128)) .illegal (matWord 0x35 a.ca a.cb a.xc a.q.val a.f2.val a.h a.sc) 0
  let c := s.me.readC a.ca
  check15 s c a.ca (permLD ||| permDMA) (mmaShape c t)
  let rowDim := if t then 0 else 1
  need (decide (n ≤ ext1 c rowDim)) .capBound (boundRecord rowDim (n - 1)) a.ca
  let e0 := if t then n else c.extent 0
  let e1 := if t then ext1 c 1 else n
  let pas ← matTile s c a.ca useRead false e0 e1
  let s ← (s.touchTile c e0 e1 false).acceptMat (.mma (bitOf a.cb.val 0) t (bitOf a.cb.val 2) a.f2.val n) c a.ca none pas []
  .ok s.intoMma

/-- The barrier object that an MSTORE names in c(cd+1), checked as Table 11.5 states. -/
def mstoreBarrier (s : State) (a : EArgs) : Except Stop (State × Option Cap × List Nat) :=
  let r := a.ca.val + 1
  let c := s.me.readC r
  if a.ca.val = 31 ∨ c.tag = false then .ok (s, none, [])
  else do
    check15 s c r (permBar ||| permDMA) (barShape c)
    one (boundElem c [0] r)
    one (boundElem c [1] r)
    let acc : Acc := { use := useWrite, align := 16, byteMode := false, strand := none, sealedOk := false }
    let e ← one (bankElem s (s.pidOf s.cur) c r acc (some (coreOf s.cur)) [0])
    .ok (s.touchPage e true, some c, [e.pa])

/-- MSTORE. Every check of its destination comes before those of the barrier: the spec orders the elements of one operand only (DESIGN CHOICE,
log 80). -/
def effMstore (a : EArgs) (s : State) : Except Stop State := do
  let c := s.me.readC a.ca
  check15 s c a.ca (permST ||| permDMA) (mstoreShape c)
  let pas ← matTile s c a.ca useWrite false (c.extent 0) (ext1 c 1)
  let (s, bar) ← mstoreBarrier s a
  (s.touchTile c (c.extent 0) (ext1 c 1) true).acceptMat (.mstore a.f2.val (a.q.val % 4) (bitOf a.q.val 2)) c a.ca bar.1 pas bar.2

/-- The row number of MRDROW and MWRROW. -/
def matRow (a : EqArgs) (q : Nat) (s : State) : Except Stop Nat := do
  let n := (s.me.readX a.cb).toNat
  need (decide (n < 128)) .illegal (matWord 0x37 a.ca a.cb a.xc q a.f2.val a.h a.sc) 0
  .ok n

/-- MRDROW: vd is written when the operation completes. -/
def effMrdrow (a : EqArgs) (s : State) : Except Stop State := do
  let n ← matRow a 0 s
  let s ← s.acceptMat (.mrdrow a.f2.val n a.xc) Cap.null 0 none [] []
  .ok (s.setMe { s.me with vbusy := maskSet s.me.vbusy a.xc })

/-- MWRROW. -/
def effMwrrow (a : EqArgs) (s : State) : Except Stop State := do
  let n ← matRow a 1 s
  s.acceptMat (.mwrrow a.f2.val n (s.me.readV a.xc)) Cap.null 0 none [] []

/-- An MWLOAD. -/
def MatKind.isLoad (k : MatKind) : Bool := match k with | .mwload _ _ => true | _ => false
/-- An MMA. -/
def MatKind.isMma (k : MatKind) : Bool := match k with | .mma _ _ _ _ _ => true | _ => false

/-- MSTAT (Table 11.7). -/
def effMstat (a : EfArgs) (s : State) : Except Stop State :=
  let k := s.myCore
  let busy (f : MatKind → Bool) : Nat := (k.mq.any fun o => o.start.isSome && f o.kind).toNat
  .ok (s.putX 0 a.xc (BitVec.ofNat 64 (k.mflags.toNat * 2 ^ 16 + busy MatKind.isLoad * 2 ^ 11 + k.shadowNew.toNat * 2 ^ 10
    + busy MatKind.isMma * 2 ^ 9 + k.mq.length)))

/-! Starting (Table 11.4). -/

/-- The accumulator an operation uses. -/
def MatKind.acc (k : MatKind) : Option Nat :=
  match k with
  | .mwload _ _ => none
  | .mma _ _ _ a _ => some a
  | .mzero a => some a
  | .mstore a _ _ => some a
  | .mrdrow a _ _ => some a
  | .mwrrow a _ _ => some a

/-- An operation that others of its accumulator wait for: MMA, MZERO and MWRROW. -/
def MatKind.writesAcc (k : MatKind) : Bool :=
  match k with
  | .mwload _ _ => false
  | .mma _ _ _ _ _ => true
  | .mzero _ => true
  | .mstore _ _ _ => false
  | .mrdrow _ _ _ => false
  | .mwrrow _ _ _ => true

/-- Every row of an operation has entered the array. -/
def MatOp.entered (o : MatOp) (cycle : Nat) : Bool :=
  match o.kind, o.start with
  | .mma _ _ _ _ n, some t => decide (t + n ≤ cycle)
  | .mma _ _ _ _ _, none => false
  | _, _ => true

/-- The start conditions against the operations ahead in MQ. -/
def mayStart (o : MatOp) (ahead : List MatOp) (cycle : Nat) : Bool :=
  let same (p : MatOp) : Bool := decide (p.kind.acc = o.kind.acc)
  match o.kind with
  | .mwload _ _ => !(ahead.any fun p => p.kind.isLoad)
  | .mma sw _ _ _ _ =>
    ahead.all (fun p => p.entered cycle) && !(sw && ahead.any fun p => p.kind.isLoad)
      && !(ahead.any fun p => same p && !p.kind.isMma)
  | .mzero _ => !(ahead.any same)
  | .mstore _ _ _ => !(ahead.any fun p => same p && p.kind.writesAcc)
  | .mrdrow _ _ _ => !(ahead.any fun p => same p && p.kind.writesAcc)
  | .mwrrow _ _ _ => !(ahead.any fun p => same p && p.kind.writesAcc)

/-- The rows an operation performs one a cycle. -/
def MatOp.rows (o : MatOp) : Nat :=
  match o.kind with
  | .mwload _ e => if e then 0 else 32
  | .mma _ _ _ _ n => n
  | .mstore _ _ _ => ext1 o.cap 1
  | _ => 0

/-- Cycles from start to completion. -/
def MatOp.span (o : MatOp) : Nat :=
  match o.kind with
  | .mwload _ e => if e then 52 else 32
  | .mma _ _ _ _ n => n + 40
  | .mzero _ => 4
  | .mstore _ _ _ => ext1 o.cap 1 + 8
  | .mrdrow _ _ _ => 4
  | .mwrrow _ _ _ => 4

/-- The key of an accumulator element. -/
def accKey (m r n : Nat) : Nat := m * 4096 + r * 32 + n

/-! The stationary load port (R294, R295). -/

/-- The first block, in traversal order, that fails verification: TVAL and TCAP. An I4X element's own block comes before its scale's. -/
def firstBad (s : State) (p : Partition) (core : Nat) (o : MatOp) : Option (Word × Nat) :=
  let e0 := o.cap.extent 0
  let bad (pa : Nat) : Bool := (sealedBlock s p core pa).isNone
  let blockVa (c : Cap) (idx : List Int) : Word := BitVec.ofInt 64 (elemByte c idx / 256 * 256)
  (tileIdx e0 (ext1 o.cap 1)).zipIdx.findSome? fun e =>
    let j : Nat := (e.1.getD 1 0).toNat
    if bad (o.pas.getD e.2 0) then some (blockVa o.cap e.1, o.capReg)
    else match o.aux, o.auxPas[j]? with
      | some c, some pa => if bad pa then some (blockVa c [0, Int.ofNat j], o.capReg + 1) else none
      | _, _ => none

/-- The plaintext number in `n` bytes of verified blocks. -/
def plainLoad (s : State) (p : Partition) (core pa n : Nat) : Nat :=
  match n with
  | 0 => 0
  | k + 1 =>
    (match sealedBlock s p core pa with
      | some r => plainByte s p r pa
      | none => 0)
    + 256 * plainLoad s p core (pa + 1) k

/-- The BF16 encoding of an element from its plaintext, with flags; none for an illegal I4X pair (R134). R294 has every element decoded with
its flags and has BF16 pass unchanged: of a NaN the encoding is kept, payload included, and no NANI is raised (DESIGN CHOICE, log 79). -/
def portDecode (s : State) (p : Partition) (core : Nat) (o : MatOp) (idx : List Int) (pos : Nat) : Option (Flagged Nat) :=
  let pa := o.pas.getD pos 0
  if o.cap.fmt = fmtI4X then
    let scale := plainLoad s p core (o.auxPas.getD (idx.getD 1 0).toNat 0) 2
    (i4xDecode (plainLoad s p core pa 1) (decide (elemAddr o.cap idx % 2 = 1))).map fun i => i4xScale i scale
  else
    match numFmt o.cap.fmt with
    | some f =>
      if o.cap.fmt = 0x11 then some (plainLoad s p core pa 2, 0)
      else some (convert f (.float bf16) .rne false (plainLoad s p core pa (f.width / 8)))
    | none => some (0, 0)

/-- Position of plane entry (k, n) in the tile, none beyond its extents. -/
def planePos (o : MatOp) (k n : Nat) : Option (List Int × Nat) :=
  let t := match o.kind with
    | .mwload t _ => t
    | _ => false
  let i0 := if t then k else n
  let i1 := if t then n else k
  if i0 < o.cap.extent 0 ∧ i1 < ext1 o.cap 1 then some ([Int.ofNat i0, Int.ofNat i1], i1 * o.cap.extent 0 + i0) else none

/-- A core's shadow plane entry. -/
def Core.setShadow (c : Core) (k n v : Nat) : Core := { c with shadow := sset 0 c.shadow (32 * k + n) (BitVec.ofNat 16 v) }

/-- Some element of an MWLOAD.E stands in an illegal I4X pair (R134): Decode faults, and nothing of the load takes effect (R10). -/
def illegalPair (s : State) (core : Nat) (o : MatOp) : Bool :=
  let p := match s.pidOfCluster (core / 8) with
    | some n => s.part n
    | none => Partition.reset
  (tileIdx (o.cap.extent 0) (ext1 o.cap 1)).zipIdx.any fun e => (portDecode s p core o e.1 e.2).isNone

/-- MWLOAD.E writes the shadow plane from verified blocks; with its flags. -/
def loadSealed (s : State) (core : Nat) (o : MatOp) : State × BitVec 8 :=
  let p := match s.pidOfCluster (core / 8) with
    | some n => s.part n
    | none => Partition.reset
  (List.range 1024).foldl (fun r i =>
    let s := r.1
    let v := ((planePos o (i / 32) (i % 32)).bind fun e => portDecode s p core o e.1 e.2).getD (0, 0)
    (s.setCore core ((s.core core).setShadow (i / 32) (i % 32) v.1), r.2 ||| v.2)) (s, 0)

/-! The operations one after another (R278). -/

/-- The bytes that an MSTORE gives element `n` of row `r`, with flags. -/
def storeElemOf (o : MatOp) (n r : Nat) : Flagged Nat :=
  match o.kind, numFmt o.cap.fmt with
  | .mstore m mode sat, some f => convert (.float fp32) f (rmOf mode) sat (sget 0 o.snap (accKey m r n)).toNat
  | _, _ => (0, 0)

/-- An MSTORE that has started. -/
def MatOp.storing (o : MatOp) : Bool :=
  o.start.isSome && match o.kind with
    | .mstore _ _ _ => true
    | _ => false

/-- The last element of an MSTORE, in the order of its rows, that covers a byte: its row and column. -/
def MatOp.covers (o : MatOp) (pa : Nat) : Option (Nat × Nat) :=
  let e0 := o.cap.extent 0
  (o.pas.zipIdx.reverse.find? fun e => decide (e.1 ≤ pa) && decide (pa < e.1 + esize o.cap.fmt)).map fun e => (e.2 / e0, e.2 % e0)

/-- A byte as an operation finds it: what MSTOREs accepted before it, but not yet there, will have written comes first (R278). -/
def matByte (s : State) (before : List MatOp) (pa : Nat) : Nat :=
  match before.reverse.findSome? fun p => (p.covers pa).map fun e => (p, e) with
  | some (p, r, n) =>
    if p.row ≤ r then (storeElemOf p n r).1 / 2 ^ (8 * (pa - p.pas.getD (r * p.cap.extent 0 + n) 0)) % 256 else (s.byte pa).toNat
  | none => (s.byte pa).toNat

/-- The little-endian number in `n` bytes, as an operation finds it. -/
def matLoad (s : State) (before : List MatOp) (pa n : Nat) : Nat :=
  if before = [] then s.load pa n
  else (List.range n).foldl (fun v k => v + matByte s before (pa + k) * 2 ^ (8 * k)) 0

/-- An operation at its place in the order of acceptance. -/
def insertOp (o : MatOp) (l : List MatOp) : List MatOp :=
  match l with
  | [] => [o]
  | p :: rest => if o.seq < p.seq then o :: p :: rest else p :: insertOp o rest

/-- The MSTOREs in flight, and those that have completed ahead of an earlier operation, in the order of acceptance. -/
def Core.stores (k : Core) : List MatOp := k.mqStored.foldl (fun l o => insertOp o l) (k.mq.filter MatOp.storing)
/-- Those of them accepted before an operation. -/
def Core.storesBefore (k : Core) (o : MatOp) : List MatOp := k.stores.filter fun p => decide (p.seq < o.seq)
/-- Those accepted after it. -/
def Core.storesAfter (k : Core) (o : MatOp) : List MatOp := k.stores.filter fun p => decide (o.seq < p.seq)

/-- Element `pos` of the operand of an MWLOAD or MMA, of two bytes. -/
def State.matOperand (s : State) (core : Nat) (o : MatOp) (pos : Nat) : Nat :=
  match o.held with
  | some vs => vs.getD pos 0
  | none => matLoad s ((s.core core).storesBefore o) (o.pas.getD pos 0) 2

/-- The operand of an operation that streams while a later MSTORE starts is held as it stands (R278, R280). -/
def State.holdOperand (s : State) (core : Nat) (o : MatOp) : MatOp :=
  let reads := match o.kind with
    | .mwload _ e => !e
    | .mma _ _ _ _ _ => true
    | _ => false
  if o.start.isSome && reads && o.held.isNone then
    { o with held := some ((List.range o.pas.length).map fun pos => s.matOperand core o pos) }
  else o

/-- An element stored by an MSTORE, but for the bytes that a later MSTORE has written already (R278). -/
def matStore (s : State) (after : List MatOp) (pa n v : Nat) : State :=
  if after = [] then s.store pa n v
  else (List.range n).foldl (fun s k =>
    if after.any fun p => match p.covers (pa + k) with
      | some (r, _) => decide (r < p.row)
      | none => false
    then s else s.store (pa + k) 1 (v / 2 ^ (8 * k) % 256)) s

/-! One operation in execution. -/

/-- An operation of MQ replaced. -/
def State.setOp (s : State) (core : Nat) (o : MatOp) : State :=
  let k := s.core core
  s.setCore core { k with mq := k.mq.map fun p => if p.seq = o.seq then o else p }

/-- The stationary load port reads the object entries of an MWLOAD.E's blocks through the core's object cache (R44, R294). -/
def State.portObjects (s : State) (core : Nat) (o : MatOp) : State :=
  let ids := (o.pas.filterMap fun pa => (s.bankOf pa).bind fun e => ((s.core core).blockOf e.2 (pa % 2 ^ 16)).map (·.objid)).eraseDups
  ids.foldl (fun s i => s.useObject core ((s.pidOfCluster (core / 8)).getD 0) i) s

/-- An operation starts: an MMA with S exchanges the planes, an MSTORE takes its accumulator as it stands, an MWLOAD.E passes the
port. -/
def State.startOp (s : State) (core : Nat) (o : MatOp) : State :=
  let k := s.core core
  let o := { o with start := some s.cycle, fin := s.cycle + o.span }
  match o.kind with
  | .mma true _ _ _ _ =>
    (s.setCore core { k with active := k.shadow, shadow := k.active, shadowNew := false }).setOp core o
  | .mstore m _ _ =>
    (s.setCore core { k with mq := k.mq.map fun p => if p.seq < o.seq then s.holdOperand core p else p }).setOp core
      { o with snap := skeep (fun i => decide (i / 4096 = m)) k.acc }
  | .mwload _ true =>
    let p := match s.pidOfCluster (core / 8) with
      | some n => s.part n
      | none => Partition.reset
    let s := s.portObjects core o
    match firstBad s p core o with
    | some b => (s.setCore core { s.core core with shadow := [] }).setOp core { o with bad := some (true, b) }
    | none =>
      if illegalPair s core o then s.setOp core { o with bad := some (false, o.cap.word1, o.capReg) }
      else
        let r := loadSealed s core o
        r.1.setOp core { o with flags := r.2 }
  | _ => s.setOp core o

/-- One element of one row of an MMA (R286). -/
def mmaElem (s : State) (core : Nat) (k : Core) (o : MatOp) (t z : Bool) (m n r col : Nat) : Flagged Nat :=
  let kext := if t then ext1 o.cap 1 else o.cap.extent 0
  let a (j : Nat) : Flagged Num :=
    if j < kext then bf16.decode (s.matOperand core o (if t then j * n + r else r * kext + j)) else (.fin false 0 0, 0)
  let start : Flagged Nat :=
    if z then (2 ^ 31, 0)
    else
      let e := (sget 0 k.acc (accKey m r col)).toNat
      (e, (fp32.decode e).2)
  (List.range 32).foldl (fun acc j =>
    let x := a j
    let w := bf16.decode (sget 0 k.active (32 * j + col)).toNat
    let v := x.1.fma w.1 (fp32.decode acc.1).1 .rne
    let e := fp32.round v.1 .rne false
    (e.1, acc.2 ||| x.2 ||| w.2 ||| v.2 ||| e.2)) start

/-- One row of an operation. -/
def State.rowOp (s : State) (core : Nat) (o : MatOp) (r : Nat) : State :=
  let k := s.core core
  match o.kind with
  | .mwload _ false =>
    s.setCore core ((List.range 32).foldl (fun c n =>
      match planePos o r n with
      | some (_, pos) => c.setShadow r n (s.matOperand core o pos)
      | none => c.setShadow r n 0) k)
  | .mma _ t z m n =>
    let res := (List.range 32).map (mmaElem s core k o t z m n r)
    let acc := res.zipIdx.foldl (fun a e => sset 0 a (accKey m r e.2) (BitVec.ofNat 32 e.1.1)) k.acc
    (s.setCore core { k with acc := acc }).setOp core { o with flags := res.foldl (fun f e => f ||| e.2) o.flags }
  | .mstore _ _ _ =>
    let e0 := o.cap.extent 0
    let res := (List.range e0).map fun n => storeElemOf o n r
    let s := res.zipIdx.foldl (fun s e => matStore s (k.storesAfter o) (o.pas.getD (r * e0 + e.2) 0) (esize o.cap.fmt) e.1.1) s
    s.setOp core { o with flags := res.foldl (fun f e => f ||| e.2) o.flags }
  | _ => s

/-- The rows of an operation that are due. -/
def State.rowsOp (core seq fuel : Nat) (s : State) : State :=
  match fuel with
  | 0 => s
  | f + 1 =>
    match (s.core core).mq.find? fun o => decide (o.seq = seq) with
    | none => s
    | some o =>
      match o.start with
      | none => s
      | some t =>
        if o.row < o.rows ∧ t + o.row ≤ s.cycle then
          rowsOp core seq f ((s.setOp core { o with row := o.row + 1 }).rowOp core { o with row := o.row + 1 } o.row)
        else s

/-- DONE after one more completion: it moves over an unbroken run (R276, R298). -/
def advanceDone (done : Nat) (late : List Nat) (fuel : Nat) : Nat × List Nat :=
  match fuel with
  | 0 => (done, late)
  | f + 1 => if late.contains (done + 1) then advanceDone (done + 1) (late.erase (done + 1)) f else (done, late)

/-- The register that an MRDROW delivers. -/
def accRow (k : Core) (m r : Nat) : Vec := BitVec.ofNat 1024 (packLanes 4 32 fun n => (sget 0 k.acc (accKey m r n)).toNat)

/-- The strand of an operation returns to the rotation; a failed verification is its INTEGRITY at the MWLOAD, an illegal I4X pair its
CAP_FORMAT there (log 19). -/
def State.fromMma (s : State) (o : MatOp) : State :=
  let t := s.strand o.strand
  if t.status ≠ .inMma then s
  else
    let s := s.setStrand o.strand { t with status := .running, nextIssue := max t.nextIssue s.cycle }
    match o.bad with
    | none => s
    | some (block, tval, reg) =>
      (s.setStrand o.strand { s.strand o.strand with pc := o.pc }).post o.strand
        (mkEvent 10 0 (if block then .integrity else .capFormat) tval (BitVec.ofNat 64 reg))

/-- What an operation does as it completes. -/
def State.completeKind (s : State) (core : Nat) (o : MatOp) : State :=
  let k := s.core core
  match o.kind with
  | .mwload _ e =>
    let s := if o.bad = some (false, o.cap.word1, o.capReg) then s else s.setCore core { k with shadowNew := true }
    if e then s.fromMma o else s
  | .mma _ _ _ _ _ => s.fromMma o
  | .mzero m => s.setCore core { k with acc := sclear (m * 4096) (m * 4096 + 4096) k.acc }
  | .mstore _ _ _ =>
    match o.auxPas with
    | pa :: _ => s.barSub pa (o.cap.extent 0 * ext1 o.cap 1 * esize o.cap.fmt) o.flags
    | [] => s
  | .mrdrow m r vd =>
    let t := s.strand o.strand
    s.setStrand o.strand { t.setV vd (accRow k m r) with vbusy := maskClear t.vbusy vd }
  | .mwrrow m r data =>
    s.setCore core { k with
      acc := (List.range 32).foldl (fun a n => sset 0 a (accKey m r n) (BitVec.ofNat 32 (elemOf data 4 n))) k.acc }

/-- What is remembered of completed MSTOREs once `o` has left MQ: those with an earlier operation still there (R278). -/
def Core.storedAfter (k : Core) (o : MatOp) : List MatOp :=
  (if o.storing then insertOp o k.mqStored else k.mqStored).filter fun p =>
    k.mq.any fun q => decide (q.seq < p.seq) && decide (q.seq ≠ o.seq)

/-- An operation completes (R275, R276, R280). -/
def State.completeOp (s : State) (core : Nat) (o : MatOp) : State :=
  let s := s.completeKind core o
  let k := s.core core
  let d := advanceDone k.mqDone (o.seq :: k.mqLate) (k.mqLate.length + 1)
  s.setCore core { k with mq := k.mq.filter fun p => decide (p.seq ≠ o.seq), mqDone := d.1, mqLate := d.2, mqStored := k.storedAfter o,
                          mflags := k.mflags ||| (if o.bad.isSome then 0 else o.flags) }

/-- The oldest operation whose completion cycle has come completes. -/
def matComplete (core : Nat) (s : State) : State :=
  match (s.core core).mq.find? fun o => o.start.isSome && decide (o.fin ≤ s.cycle) with
  | some o =>
    let s := State.rowsOp core o.seq o.rows s
    match (s.core core).mq.find? fun p => decide (p.seq = o.seq) with
    | some o => s.completeOp core o
    | none => s
  | none => s

/-- The first operation that has not started starts when Table 11.4 lets it. -/
def matStart (core : Nat) (s : State) : State :=
  let mq := (s.core core).mq
  match mq.find? fun o => o.start.isNone with
  | some o =>
    let ahead := mq.takeWhile fun p => decide (p.seq ≠ o.seq)
    let later := ahead.all fun p => match p.start with
      | some t => decide (t < s.cycle)
      | none => true
    if o.accepted < s.cycle ∧ later = true ∧ mayStart o ahead s.cycle = true then s.startOp core o else s
  | none => s

/-- The rows due of every started operation. -/
def matRows (core : Nat) (s : State) : State :=
  (s.core core).mq.foldl (fun s o => State.rowsOp core o.seq 128 s) s

/-- One cycle of a core's matrix engine. -/
def matTick (core : Nat) (s : State) : State :=
  let s := ((List.range 16).foldl (fun s _ => matComplete core s) s)
  matRows core (matStart core s)

/-! As the issue logic sees them. -/

/-- MWLOAD. -/
def bodyMwload (a : EfArgs) : Body := { reads := [rc a.ca], sc := a.sc, eff := fun _ => effMwload a }
/-- MZERO. -/
def bodyMzero (a : EfArgs) : Body := { reads := [], sc := a.sc, eff := fun _ => effMzero a }
/-- MSTAT. -/
def bodyMstat (a : EfArgs) : Body := { reads := [], writes := [rx a.xc], sc := a.sc, eff := fun _ => effMstat a }
/-- MMA. -/
def bodyMma (a : EArgs) : Body := { reads := [rc a.ca, rx a.xc], sc := a.sc, eff := fun _ => effMma a }
/-- MSTORE. -/
def bodyMstore (a : EArgs) : Body :=
  { reads := rc a.ca :: (if a.ca.val = 31 then [] else [rc (a.ca.val + 1)]), sc := a.sc, eff := fun _ => effMstore a }
/-- MRDROW. -/
def bodyMrdrow (a : EqArgs) : Body :=
  { reads := [rx a.cb], rebuilds := [rv a.xc], writes := [rv a.xc], sc := a.sc, eff := fun _ => effMrdrow a }
/-- MWRROW. -/
def bodyMwrrow (a : EqArgs) : Body := { reads := [rx a.cb, rv a.xc], sc := a.sc, eff := fun _ => effMwrrow a }

end Sys2Proof.Machine
end

