-- ==== Sys2Proof/Machine/Copy.lean ====
section
/-! DEFINITION. The copy engine (R297 to R328): issue checks, pairing, the delivery of one unit, faults, completion. -/

namespace Sys2Proof.Machine

/-! Shapes and counts. -/

/-- Elements of a capability: the product of its extents. -/
def elemCount (c : Cap) : Nat := c.view.dims.foldl (fun n d => n * d.1.toNat) 1

/-- The index vector of element `n`, dimension 0 fastest; the last entry takes what is left. -/
def indexOf (dims : List (Int × Int)) (n : Nat) : List Int :=
  match dims with
  | [] => []
  | [_] => [Int.ofNat n]
  | (e, _) :: rest => Int.ofNat (n % max 1 e.toNat) :: indexOf rest (n / max 1 e.toNat)

/-- The bytes of the first `n` elements of a destination (R312). -/
def bytesOf (c : Cap) (n : Nat) : Nat :=
  if c.sparse ≠ 0 then n * groupSize c.fmt c.sparse / 64
  else if c.fmt = fmtI4X then n / 2
  else n * esize c.fmt

/-! Pairing (R306, Table 12.5). -/

/-- How a copy forms the value it delivers. -/
inductive Pairing
  | raw | conv | unpack | scaled | nibble | group
  deriving DecidableEq, Repr

/-- A numeric format. -/
def numeric (f : Nat) : Bool := (numFmt f).isSome

/-- The row of Table 12.5. -/
def pairing (scaled : Bool) (src dst : Cap) : Option Pairing :=
  if scaled then
    if dst.sparse = 0 ∧ (dst.fmt = 0x10 ∨ dst.fmt = 0x11 ∨ dst.fmt = 0x12 ∨ dst.fmt = 0x14 ∨ dst.fmt = 0x15) then some .scaled
    else none
  else if src.fmt = dst.fmt ∧ src.sparse = dst.sparse then
    some (if src.sparse ≠ 0 then .group else if src.fmt = fmtI4X then .nibble else .raw)
  else if dst.sparse ≠ 0 ∨ numeric src.fmt = false ∨ numeric dst.fmt = false then none
  else some (if src.sparse ≠ 0 then .unpack else .conv)

/-- Strides of dimension 1 and above are equal in both (R309). -/
def sameOuter (a b : Cap) : Bool :=
  (List.range 7).all fun k => decide ((a.view.dim (k + 1)).2 = (b.view.dim (k + 1)).2)

/-- R307 and R309. -/
def pairShape (p : Pairing) (src dst : Cap) (o0 : Int) : Bool :=
  match p with
  | .nibble => decide (o0 % 2 = 0) && decide (dst.extent 0 % 2 = 0)
  | .group => decide (o0 % 64 = 0) && sameOuter src dst
  | _ => true

/-- A bank of a core is sealed. -/
def State.sealedAt (s : State) (core b : Nat) : Bool := bitOf ((s.core core).bfmtOf b).toNat 6

/-- Some bank that a span meets is sealed: at the cores of a multicast where there are any (R315), else where it lies. -/
def meetsSealed (s : State) (pid : Option Nat) (cores : List Nat) (va n : Nat) : Bool :=
  match n with
  | 0 => false
  | k + 1 =>
    (match bankAt s pid va with
      | some (c, b) => if cores = [] then s.sealedAt c b else cores.any fun t => s.sealedAt t b
      | none => false)
    || meetsSealed s pid cores (va + 2 ^ 16) k

/-- A capability's span meets a sealed bank. -/
def intoSealed (s : State) (cores : List Nat) (c : Cap) : Bool :=
  match span c with
  | none => false
  | some (lo, hi) =>
    let a := lo.toNat / 2 ^ 16
    meetsSealed s (s.pidOf s.cur) cores (a * 2 ^ 16) ((hi.toNat + 2 ^ 16 - 1) / 2 ^ 16 - a)

/-- R310: what a copy into a sealed bank must meet. -/
def sealedCopy (s : State) (src dst : Cap) (o0 : Int) : Bool :=
  let w := esize src.fmt
  decide (src.kind = dst.kind) && decide (src.sparse = 0) && decide (src.rank = 1) && decide (dst.rank = 1)
    && decide (src.stride 0 = 1) && decide (dst.stride 0 = 1) && decide (dst.base % 256 = 0)
    && decide (bytesOf dst (elemCount dst) % 256 = 0)
    && decide (((src.base : Int) + (if src.fmt = fmtI4X then o0 / 2 else o0 * w) - objBase s s.myPart src.objid) % 256 = 0)
    && objEnc s s.myPart src.objid

/-! Issue (R301 to R304). -/

/-- A lane of the vector operand. -/
def voLane (v : Vec) (k : Nat) : Nat := elemOf v 4 k

/-- The origin. -/
def voOrigin (v : Vec) : List Int := (List.range 8).map fun k => signedOf 32 (voLane v k)

/-- The word of a copy instruction. -/
def copyWord (major f2 : Nat) (a : EfArgs) : Nat := encVE major a.ca a.cb a.xc a.q f2 a.h a.sc

/-- Scope of lane 11: STRAND acts as CORE. -/
def voScope (v : Vec) : Nat := max 1 (voLane v 11 % 8)

/-- The queue `q` of the current core. -/
def State.copyQueue (s : State) (core q : Nat) : CopyQueue := sget CopyQueue.reset (s.core core).cq q

/-- A queue replaced. -/
def State.setQueue (s : State) (core q : Nat) (c : CopyQueue) : State :=
  s.setCore core { s.core core with cq := sset CopyQueue.reset (s.core core).cq q c }

/-- An operation enters its queue; while it is full the instruction is held (R297). It has passed its issue checks by then: one that fails them
traps at once, full queue or not (DESIGN CHOICE, log 91). -/
def State.acceptCopy (s : State) (q : Nat) (op : CopyOp) : Except Stop State :=
  let c := s.copyQueue (coreOf s.cur) q
  if 32 ≤ c.ops.length then .error .hold
  else .ok (s.setQueue (coreOf s.cur) q
    { c with ops := c.ops ++ [{ op with seq := c.issued + 1, strand := s.cur }], issued := c.issued + 1 })

/-- An operation before its fields are set. -/
def copyBlank (kind : CopyKind) : CopyOp :=
  { seq := 0, kind := kind, strand := 0, dst := Cap.null, dstReg := 0, src := Cap.null, srcReg := 0, aux := Cap.null, auxReg := 0,
    auxPa := 0, origin := [], scope := 1, blocks := false, started := false, prefixN := 0, sub := 0, flags := 0, old := [] }

/-- Check 5 on the source of CPYS. -/
def scaledSource (c : Cap) : Bool := decide (c.sparse = 0) && decide (c.fmt = fmtI4X)

/-- Steps 1 to 3 of R303 for a copy of a source to a destination, with what the auxiliary needs at checks 1 to 5; `cores` are the targets of a
multicast. -/
def copyChecks (s : State) (word : Nat) (scaled lanes : Bool) (cores : List Nat) (aux : Option (BitVec 14 × (Cap → Bool))) (a : EfArgs) :
    Except Stop (Pairing × Bool) := do
  let v := s.me.readV a.xc
  let src := s.me.readC a.cb
  let dst := s.me.readC a.ca
  need (lanes && decide (voLane v 11 % 8 < 6)) .illegal (BitVec.ofNat 64 word) 0
  check15 s src a.cb (permLD ||| permDMA) (anyShape src && (!scaled || scaledSource src))
  check15 s dst a.ca (permST ||| permDMA) (anyShape dst)
  let o0 := (voOrigin v).headD 0
  let blocks := intoSealed s cores dst
  match pairing scaled src dst with
  | none => fault .capFormat dst.word1 a.ca
  | some p =>
    need (pairShape p src dst o0 && (!blocks || sealedCopy s src dst o0)) .capFormat dst.word1 a.ca
    match aux with
    | some (want, shape) =>
      let r := a.cb.val + 1
      check15 s (s.me.readC r) r want (shape (s.me.readC r))
    | none => .ok ()
    need (decide (elemCount dst < 2 ^ 40) && decide (bytesOf dst (elemCount dst) < 2 ^ 40)) .illegal (BitVec.ofNat 64 word) 0
    .ok (p, blocks)

/-- The operation that a copy instruction makes. -/
def copyOp (s : State) (kind : CopyKind) (a : EfArgs) (blocks : Bool) : CopyOp :=
  let v := s.me.readV a.xc
  { copyBlank kind with dst := s.me.readC a.ca, dstReg := a.ca, src := s.me.readC a.cb, srcReg := a.cb, origin := voOrigin v,
                        scope := voScope v, blocks := blocks }

/-- CPY. -/
def effCpy (a : EfArgs) (s : State) : Except Stop State := do
  let c ← copyChecks s (copyWord 0x38 0 a) false true [] none a
  s.acceptCopy a.q (copyOp s .cpy a c.2)

/-- Checks 6 and 9 on element 0 of an auxiliary capability (R303, step 4). -/
def auxZero (c : Cap) (reg align : Nat) : Except Stop Nat := do
  one (boundElem c [0] reg)
  let ad := elemAddr c [0]
  need (decide (ad % (align : Int) = 0)) .align (BitVec.ofInt 64 ad) reg
  .ok ad.toNat

/-- CPYW. -/
def effCpyw (a : EfArgs) (s : State) : Except Stop State := do
  let c ← copyChecks s (copyWord 0x38 1 a) false true [] (some (permST ||| permDMA, wordShape)) a
  let r := a.cb.val + 1
  let _ ← auxZero (s.me.readC r) r 8
  let v := s.me.readV a.xc
  let value : Word := BitVec.ofNat 64 (voLane v 8 + voLane v 9 * 2 ^ 32)
  s.acceptCopy a.q { copyOp s (.cpyw value) a c.2 with aux := s.me.readC r, auxReg := r }

/-- The barrier object that an engine operation names, checked at issue (R303, step 4): checks 10 and 11 at both elements, the lowest-order
failing one reported (R42). -/
def engineBarrier (s : State) (c : Cap) (reg : Nat) : Except Stop (State × Nat) := do
  let acc : Acc := { use := useWrite, align := 16, byteMode := false, strand := none, sealedOk := false }
  let a0 := elemAddr c [0]
  let a1 := elemAddr c [1]
  one (boundElem c [0] reg)
  need (decide (a0 % 16 = 0)) .align (BitVec.ofInt 64 a0) reg
  one (boundElem c [1] reg)
  need (decide (a1 % 8 = 0)) .align (BitVec.ofInt 64 a1) reg
  let pid := s.pidOf s.cur
  let _ ← gather [mapped s pid reg useWrite 16 a0, mapped s pid reg useWrite 8 a1]
  let e ← one (mapped s pid reg useWrite 16 a0)
  need (inBank s (some (coreOf s.cur)) e.pa) .pageAttr (BitVec.ofNat 64 e.va) reg
  let _ ← one (banked s c reg acc e)
  .ok (s.touchPage e true, e.pa)

/-- CPYB. -/
def effCpyb (a : EfArgs) (s : State) : Except Stop State := do
  let c ← copyChecks s (copyWord 0x38 2 a) false true [] (some (permBar ||| permDMA, barShape)) a
  let r := a.cb.val + 1
  let (s, pa) ← engineBarrier s (s.me.readC r) r
  s.acceptCopy a.q { copyOp s .cpyb a c.2 with aux := s.me.readC r, auxReg := r, auxPa := pa }

/-- What a scale tensor meets at check 5. -/
def bfShape (c : Cap) : Bool := decide (c.sparse = 0) && decide (c.fmt = 0x11)

/-- CPYS. -/
def effCpys (a : EfArgs) (s : State) : Except Stop State := do
  let c ← copyChecks s (copyWord 0x38 3 a) true true [] (some (permLD ||| permDMA, bfShape)) a
  let r := a.cb.val + 1
  let _ ← auxZero (s.me.readC r) r 2
  s.acceptCopy a.q { copyOp s .cpys a c.2 with aux := s.me.readC r, auxReg := r }

/-- CPYM. A mask of zero takes a sequence number and completes at once (R316). -/
def effCpym (a : EfArgs) (s : State) : Except Stop State := do
  let m := voLane (s.me.readV a.xc) 10
  let cores := (List.range 8).filter (bitOf m)
  let cl := clusterOf s.cur
  let c ← copyChecks s (copyWord 0x39 0 a) false (decide (m < 256)) (cores.map (8 * cl + ·)) none a
  need (cores.all fun k => !(s.offline (8 * cl + k))) .mcast (BitVec.ofNat 64 m) 0
  let op := copyOp s (.cpym (BitVec.ofNat 8 m)) a c.2
  if m = 0 then
    let core := coreOf s.cur
    let q := s.copyQueue core a.q
    if 32 ≤ q.ops.length then .error .hold
    else
      let d := advanceDone q.done ((q.issued + 1) :: q.late) (q.late.length + 1)
      .ok (s.setQueue core a.q { q with issued := q.issued + 1, done := d.1, late := d.2 })
  else s.acceptCopy a.q op

/-- CPF (R317). -/
def effCpf (a : EfArgs) (s : State) : Except Stop State := do
  let c := s.me.readC a.cb
  check15 s c a.cb (permLD ||| permDMA) (anyShape c)
  s.acceptCopy a.q { copyBlank .cpf with src := c, srcReg := a.cb, origin := voOrigin (s.me.readV a.xc) }

/-- CFILL (R318). -/
def effCfill (a : EfArgs) (s : State) : Except Stop State := do
  let c := s.me.readC a.ca
  check15 s c a.ca (permST ||| permDMA) (anyShape c && decide (c.sparse = 0) && decide (c.fmt ≠ fmtCAP))
  need (decide (elemCount c < 2 ^ 40) && decide (bytesOf c (elemCount c) < 2 ^ 40)) .illegal
    (BitVec.ofNat 64 (copyWord 0x39 2 a)) 0
  s.acceptCopy a.q { copyBlank (.cfill (s.me.readX a.xc)) with dst := c, dstReg := a.ca }

/-! Element accesses of an engine (R483). -/

/-- The L1 line of a core that holds bytes which an engine writes takes them too: they are clean, and their granules untagged (R483). -/
def State.l1Engine (s : State) (core pa : Nat) (bytes : BitVec 128) : State :=
  let k := s.core core
  if (k.l1.any fun l => decide (l.line = pa / 2 ^ 7)) && decide (bytes ≠ 0) then
    s.setCore core { k with l1 := k.l1.map fun l =>
      if l.line = pa / 2 ^ 7 then { l with dirty := l.dirty &&& ~~~bytes, tags := l.tags &&& ~~~(granulesOf bytes) } else l }
  else s

/-- The parts of `[pa, pa + n)` by line: the offset of each from the start, and its bytes. -/
def lineParts (pa n : Nat) : List (Nat × Nat) :=
  (List.range ((pa + n - 1) / 128 + 1 - pa / 128)).map fun k =>
    let lo := max pa ((pa / 128 + k) * 128)
    (lo - pa, min (pa + n) ((pa / 128 + k + 1) * 128) - lo)

/-- An access of `n` bytes at their home: Accessed and Dirty bits, and a request to the home slice for each line. -/
def State.homeTouch (s : State) (via : Via) (pid : Nat) (e : Elem) (n : Nat) (write : Bool) : State :=
  (lineParts e.pa n).foldl (fun s p =>
    s.l2Request pid (some (e.va + p.1)) (e.pa + p.1) (if write then byteMask (e.pa + p.1) p.2 else 0) (bitOf e.leaf.entry 5) e.integ)
    (s.touchLeaf via pid e.va e.leaf write)

/-- An engine's access of `n` bytes: at their home, and in the issuing core's own L1 line (R483). -/
def State.engTouch (s : State) (core : Nat) (e : Elem) (n : Nat) (write : Bool) : State :=
  (lineParts e.pa n).foldl (fun s p => s.l1Engine core (e.pa + p.1) (if write then byteMask (e.pa + p.1) p.2 else 0))
    (s.homeTouch (.core core) ((s.pidOfCluster (core / 8)).getD 0) e n write)

/-- An engine's write for strand `n`. One to the peer card is posted (R461). -/
def State.engStore (s : State) (core n : Nat) (e : Elem) (w v : Nat) : State :=
  let s := (s.engTouch core e w true).store e.pa w v
  if s.isPeer e.pa then { s with unacked := sset 0 s.unacked n (sget 0 s.unacked n + 1) } else s

/-- How an engine accesses an element. -/
def engAcc (use : Use) (align : Nat) : Acc := { use := use, align := align, byteMode := false, strand := none, sealedOk := false }

/-- A dense element of a format other than I4X. -/
def engElem (s : State) (core : Nat) (c : Cap) (reg : Nat) (use : Use) (idx : List Int) : Except Fail Elem :=
  placeElem s (s.pidOfCluster (core / 8)) c reg (engAcc use (esize c.fmt)) idx

/-- A nibble: its byte, and whether it is the high one. -/
def engNibble (s : State) (core : Nat) (c : Cap) (reg : Nat) (use : Use) (idx : List Int) : Except Fail (Elem × Bool) :=
  match boundElem c idx reg with
  | .error e => .error e
  | .ok _ =>
    let a := elemAddr c idx
    match placed s (s.pidOfCluster (core / 8)) c reg (engAcc use 1) (a / 2) with
    | .ok e => .ok (e, decide (a % 2 = 1))
    | .error e => .error e

/-- A nibble of a byte. -/
def nibbleOf (b : Nat) (high : Bool) : Nat := b / (if high then 16 else 1) % 16

/-- A byte with one nibble replaced. -/
def withNibble (b v : Nat) (high : Bool) : Nat := if high then b % 16 + v * 16 else b / 16 * 16 + v

/-- The addresses of the words of 8 bytes of the group that holds a sparse element (R140). -/
def groupAddrs (c : Cap) (idx : List Int) : List Int :=
  let g : Int := (c.base : Int) + dotDims c.view.dims idx / 64 * groupSize c.fmt c.sparse
  (List.range (groupSize c.fmt c.sparse / 8)).map fun k : Nat => g + 8 * Int.ofNat k

/-- Results in turn, or the first failure. -/
def inTurn {α β ε : Type} (f : α → Except ε β) (l : List α) : Except ε (List β) :=
  match l with
  | [] => .ok []
  | x :: rest => match f x with
    | .error e => .error e
    | .ok y => match inTurn f rest with
      | .error e => .error e
      | .ok ys => .ok (y :: ys)

/-- The words of the group that holds a sparse element, each placed (R140, R141). -/
def groupWords (s : State) (core : Nat) (c : Cap) (reg : Nat) (use : Use) (idx : List Int) : Except Fail (List Elem) :=
  inTurn (placed s (s.pidOfCluster (core / 8)) c reg (engAcc use 8)) (groupAddrs c idx)

/-- One bits among the low `n`. -/
def onesBelow (m n : Nat) : Nat := ((List.range n).filter (bitOf m)).length

/-! What a copy reads of bytes that it has itself overwritten (R311). -/

/-- One of two values that the spec leaves open between them: the first where they are the same. -/
def State.either (s : State) (a b : Nat) : State × Nat :=
  if a = b then (s, a)
  else ({ s with freeCtr := s.freeCtr + 1 }, if Config.freeChoice s.freeCtr 1 % 2 = 0 then a else b)

/-- A byte as it was before the copy began, where the copy has overwritten it. -/
def CopyOp.byteOf (o : CopyOp) (s : State) (pa : Nat) : Byte := (sget none o.old pa).getD (s.byte pa)

/-- The little-endian number in `n` bytes as they were before the copy began. -/
def CopyOp.loadOf (o : CopyOp) (s : State) (pa n : Nat) : Nat :=
  match n with
  | 0 => 0
  | k + 1 => (o.byteOf s pa).toNat + 256 * o.loadOf s (pa + 1) k

/-- Every byte of an element has been overwritten by this copy. -/
def CopyOp.rewrote (o : CopyOp) (pa n : Nat) : Bool :=
  decide (o.old ≠ []) && (List.range n).all fun k => (sget none o.old (pa + k)).isSome

/-- A dense source element: as it was before the copy began or, where an element of this copy has replaced it whole, that value as well: which
of the two is not fixed (R311, log 4). -/
def CopyOp.element (o : CopyOp) (s : State) (pa n : Nat) : State × Nat :=
  if o.rewrote pa n && decide (esize o.dst.fmt = n) then s.either (o.loadOf s pa n) (s.load pa n) else (s, o.loadOf s pa n)

/-- A source nibble of a pair that moves unchanged, likewise. -/
def CopyOp.nibble (o : CopyOp) (s : State) (e : Elem × Bool) : State × Nat :=
  s.either (nibbleOf (o.byteOf s e.1.pa).toNat e.2) (nibbleOf (s.byte e.1.pa).toNat e.2)

/-- A group read: its words, once its mask has the right population. -/
def readGroup (s : State) (core : Nat) (o : CopyOp) (c : Cap) (reg : Nat) (idx : List Int) : Except Fail (List Elem) :=
  match boundElem c idx reg with
  | .error e => .error e
  | .ok _ =>
    match groupWords s core c reg useRead idx with
    | .error e => .error e
    | .ok es =>
      let mask := match es with
        | e :: _ => o.loadOf s e.pa 8
        | [] => 0
      if onesBelow mask 64 = sparseKept c.sparse then .ok es else failTrap 16 .capFormat c.word1 reg

/-- The number in `n` bytes at an offset of a group. -/
def groupLoad (s : State) (o : CopyOp) (es : List Elem) (off n : Nat) : Nat :=
  match n with
  | 0 => 0
  | k + 1 =>
    (match es[off / 8]? with
      | some e => (o.byteOf s (e.pa + off % 8)).toNat
      | none => 0)
    + 256 * groupLoad s o es (off + 1) k

/-- The encoding of a sparse element; 0 when it is absent. -/
def groupElem (s : State) (o : CopyOp) (es : List Elem) (c : Cap) (idx : List Int) : Nat :=
  let j := (dotDims c.view.dims idx % 64).toNat
  let mask := groupLoad s o es 0 8
  if bitOf mask j then groupLoad s o es (8 + onesBelow mask j * esize c.fmt) (esize c.fmt) else 0

/-! One unit. -/

/-- The pairing of an accepted operation. -/
def CopyOp.pairing (o : CopyOp) : Pairing :=
  match o.kind with
  | .cpys => .scaled
  | _ => (Machine.pairing false o.src o.dst).getD .raw

/-- A copy that moves bytes unchanged (R433). -/
def CopyOp.unchanged (o : CopyOp) : Bool :=
  match o.kind with
  | .cfill _ => false
  | _ =>
    match o.pairing with
    | .raw => true
    | .nibble => true
    | .group => true
    | _ => false

/-- The elements of a unit. CFILL's is one element, a single nibble of I4X as well (DESIGN CHOICE, log 100). -/
def CopyOp.unit (o : CopyOp) : Nat :=
  match o.kind with
  | .cfill _ => 1
  | _ =>
    if o.blocks then (if o.dst.fmt = fmtI4X then 512 else 256 / max 1 (esize o.dst.fmt))
    else match o.pairing with
      | .nibble => 2
      | .group => 64
      | _ => 1

/-- A write into the destination. -/
def CopyOp.use (o : CopyOp) : Use := { write := true, tagged := false, raw := o.unchanged }

/-- The destination and source index vectors of element `n`. -/
def CopyOp.index (o : CopyOp) (n : Nat) : List Int := indexOf o.dst.view.dims n

/-- Entry `k` of the source index is entry `k` of the destination's plus the origin, for every `k` below 8. -/
def CopyOp.source (o : CopyOp) (n : Nat) : List Int :=
  (List.range 8).map fun k => (o.index n).getD k 0 + o.origin.getD k 0

/-- RNE, with sat for an integer destination (R306). -/
def copyRound (dst : NumFmt) (v : Flagged Num) : Flagged Nat :=
  let sat := match dst with
    | .int _ _ => true
    | .float _ => false
  let r := dst.round v.1 .rne sat
  (r.1, v.2 ||| r.2)

/-- An encoding of one format delivered in another. -/
def copyConvert (src dst : Nat) (enc : Nat) : Flagged Nat :=
  match numFmt src, numFmt dst with
  | some f, some g => copyRound g (f.decode enc)
  | _, _ => (enc, 0)

/-- What a failing check reports beside its trap: the core of a multicast target. -/
structure CopyFail where
  fail : Fail
  core : Option Nat
  deriving DecidableEq, Repr

/-- A failure that no multicast target made. -/
def plainFail {α : Type} (r : Except Fail α) : Except CopyFail α :=
  match r with
  | .ok a => .ok a
  | .error f => .error { fail := f, core := none }

/-- The value of element `n`, read and formed (R305, R306, R308, R309), with its flags and the state after the reads. An I4X element is judged
on its source byte before its scale (R319); the BF16 value of R136 is rounded without being decoded again. A group's element, an I4X source of
CPYS, its scale, and a source of another width than the destination are as they were before the copy began, which R311 allows (DESIGN CHOICE,
log 98). -/
def sourceValue (s : State) (core : Nat) (o : CopyOp) (n : Nat) : Except Fail (State × Flagged Nat) :=
  let j := o.source n
  let w := esize o.src.fmt
  match o.pairing with
  | .raw => (engElem s core o.src o.srcReg useRead j).map fun e =>
      let r := o.element (s.engTouch core e w false) e.pa w
      (r.1, (r.2, 0))
  | .conv => (engElem s core o.src o.srcReg useRead j).map fun e =>
      let r := o.element (s.engTouch core e w false) e.pa w
      (r.1, copyConvert o.src.fmt o.dst.fmt r.2)
  | .unpack => (readGroup s core o o.src o.srcReg j).map fun es =>
      (es.foldl (fun s e => s.engTouch core e 8 false) s, copyConvert o.src.fmt o.dst.fmt (groupElem s o es o.src j))
  | .scaled =>
    match engNibble s core o.src o.srcReg useRead j with
    | .error e => .error e
    | .ok e =>
      match i4xDecode (o.byteOf s e.1.pa).toNat e.2 with
      | none => failTrap 16 .capFormat o.src.word1 o.srcReg
      | some i =>
        match engElem s core o.aux o.auxReg useRead (j.headD 0 / 32 :: j.tail) with
        | .error f => .error f
        | .ok g =>
          let v := i4xScale i (o.loadOf s g.pa 2)
          let r := match numFmt o.dst.fmt with
            | some f => copyRound f ((bf16.decode v.1).1, 0)
            | none => (v.1, 0)
          .ok ((s.engTouch core e.1 1 false).engTouch core g 2 false, (r.1, v.2 ||| r.2))
  | _ => .ok (s, (0, 0))

/-- The cores that a CPYM names (R315). -/
def castCores (core : Nat) (mask : BitVec 8) : List Nat :=
  ((List.range 8).filter fun t => mask.getLsbD t).map fun t => core / 8 * 8 + t

/-- Where `[ad, ad + align)` of a destination is written: its one place, or, for CPYM, the same offset of the window of every named core, each
target's bank checks passed (R315). An element outside the issuing core's window fails alone, when it is reached, with PAGE_ATTR and MC = 0
(DESIGN CHOICE, log 99). `sealed_` lets a block into a sealed bank. -/
def copyPlaces (s : State) (core : Nat) (o : CopyOp) (align : Nat) (sealed_ : Bool) (ad : Int) : Except CopyFail (List Elem) :=
  let pid := s.pidOfCluster (core / 8)
  let acc : Acc := { engAcc o.use align with sealedOk := sealed_ }
  match o.kind with
  | .cpym mask =>
    match mapped s pid o.dstReg o.use align ad with
    | .error f => .error { fail := f, core := none }
    | .ok e =>
      match s.bankOf e.pa with
      | none => plainFail (failTrap 11 .pageAttr (BitVec.ofNat 64 e.va) o.dstReg)
      | some (k, b) =>
        if k ≠ core then plainFail (failTrap 11 .pageAttr (BitVec.ofNat 64 e.va) o.dstReg)
        else inTurn (fun t => match bankCheck s o.dst o.dstReg acc e.va t b with
          | .error f => .error { fail := f, core := some t }
          | .ok _ => .ok { e with pa := e.pa - s.window core + s.window t }) (castCores core mask)
  | _ => (plainFail (placed s pid o.dst o.dstReg acc ad)).map fun e => [e]

/-- A value of `w` bytes written at every place. -/
def State.engPut (s : State) (core : Nat) (o : CopyOp) (es : List Elem) (w v : Nat) : State :=
  es.foldl (fun s e => s.engStore core o.strand e w v) s

/-- One element delivered. -/
def deliverElem (s : State) (core : Nat) (o : CopyOp) (n : Nat) (v : Nat) : Except CopyFail State := do
  plainFail (boundElem o.dst (o.index n) o.dstReg)
  let ad := elemAddr o.dst (o.index n)
  if o.dst.fmt = fmtI4X then
    let es ← copyPlaces s core o 1 false (ad / 2)
    .ok (es.foldl (fun s e => s.engStore core o.strand e 1 (withNibble (s.byte e.pa).toNat v (decide (ad % 2 = 1)))) s)
  else
    let es ← copyPlaces s core o (esize o.dst.fmt) false ad
    .ok (s.engPut core o es (esize o.dst.fmt) v)

/-- A pair of nibbles moved unchanged: both are checked before either is written (R307). The failure that a unit reports is the first in the order
of its elements, the sources first, whatever the order of the checks (DESIGN CHOICE, log 97). -/
def deliverNibbles (s : State) (core : Nat) (o : CopyOp) (n : Nat) : Except CopyFail State := do
  let a ← plainFail (engNibble s core o.src o.srcReg useRead (o.source n))
  let b ← plainFail (engNibble s core o.src o.srcReg useRead (o.source (n + 1)))
  plainFail (boundElem o.dst (o.index n) o.dstReg)
  let _ ← copyPlaces s core o 1 false (elemAddr o.dst (o.index n) / 2)
  plainFail (boundElem o.dst (o.index (n + 1)) o.dstReg)
  let _ ← copyPlaces s core o 1 false (elemAddr o.dst (o.index (n + 1)) / 2)
  let va := o.nibble ((s.engTouch core a.1 1 false).engTouch core b.1 1 false) a
  let vb := o.nibble va.1 b
  let s ← deliverElem vb.1 core o n va.2
  deliverElem s core o (n + 1) vb.2

/-- A sparse group moved unchanged (R309). -/
def deliverGroup (s : State) (core : Nat) (o : CopyOp) (n : Nat) : Except CopyFail State := do
  let a ← plainFail (readGroup s core o o.src o.srcReg (o.source n))
  plainFail (boundElem o.dst (o.index n) o.dstReg)
  let b ← inTurn (copyPlaces s core o 8 false) (groupAddrs o.dst (o.index n))
  let vs := a.map fun e => o.loadOf s e.pa 8
  let s := a.foldl (fun s e => s.engTouch core e 8 false) s
  .ok ((b.zip vs).foldl (fun s e => s.engPut core o e.1 8 e.2) s)

/-- The record of a block that has come into a sealed bank (R293). -/
def State.setRecord (s : State) (pa : Nat) (r : BlockRec) : State :=
  match s.bankOf pa with
  | none => s
  | some (k, b) =>
    if s.sealedAt k b then
      s.setCore k { s.core k with blocks := sset none (s.core k).blocks (256 * b + pa % 2 ^ 16 / 256) (some r) }
    else s

/-- A block of 256 bytes moved into a sealed bank, and its record written (R293, R310). -/
def deliverBlock (s : State) (core : Nat) (o : CopyOp) (n : Nat) : Except CopyFail State := do
  let pid := s.pidOfCluster (core / 8)
  let _ ← plainFail (inTurn (fun k => boundElem o.src (o.source (n + k)) o.srcReg) (List.range o.unit))
  let sa := elemByte o.src (o.source n)
  let da := elemByte o.dst (o.index n)
  let a ← plainFail (placed s pid o.src o.srcReg (engAcc useRead 1) sa)
  let es ← copyPlaces s core o 256 true da
  let r : BlockRec := { objid := o.src.objid, va := sa.toNat, mac := BitVec.ofNat 64 (s.load (macAt a.pa) 8) }
  let v := s.load a.pa 256
  .ok (es.foldl (fun s e => (s.engStore core o.strand e 256 v).setRecord e.pa r) (s.engTouch core a 256 false))

/-- The next unit: the state and the flags, or what failed. -/
def deliverUnit (s : State) (core : Nat) (o : CopyOp) : Except CopyFail (State × BitVec 8) :=
  let n := o.prefixN
  let quiet (r : Except CopyFail State) : Except CopyFail (State × BitVec 8) := r.map fun s => (s, 0)
  match o.kind with
  | .cfill v => quiet (deliverElem s core o n (if o.dst.fmt = fmtI4X then v.toNat % 16 else lowWord (8 * esize o.dst.fmt) v))
  | _ =>
    if o.blocks then quiet (deliverBlock s core o n)
    else match o.pairing with
      | .nibble => quiet (deliverNibbles s core o n)
      | .group => quiet (deliverGroup s core o n)
      | _ => do
        let r ← plainFail (sourceValue s core o n)
        let s ← deliverElem r.1 core o n r.2.1
        .ok (s, r.2.2)

/-- The destination's element set meets the span of the source or of the scale tensor (R311). -/
def CopyOp.overlaps (o : CopyOp) : Bool :=
  let meets (a b : Cap) : Bool := match span a, span b with
    | some (l, h), some (m, k) => decide (l < k) && decide (m < h)
    | _, _ => false
  match o.kind with
  | .cfill _ => false
  | .cpys => meets o.dst o.src || meets o.dst o.aux
  | _ => meets o.dst o.src

/-- The bytes of one unit of a destination, by physical address. -/
def unitBytes (s : State) (core : Nat) (o : CopyOp) : List Nat :=
  if o.dst.sparse ≠ 0 then (groupAddrs o.dst (o.index o.prefixN)).flatMap fun ad => bytesAt s core o 8 ad
  else bytesAt s core o (max 1 (esize o.dst.fmt)) (elemByte o.dst (o.index o.prefixN))
where
  bytesAt (s : State) (core : Nat) (o : CopyOp) (w : Nat) (ad : Int) : List Nat :=
    match copyPlaces s core o w false ad with
    | .ok es => es.flatMap fun e => (List.range w).map (e.pa + ·)
    | .error _ => []

/-- What a copy keeps of the bytes that its next unit overwrites (R311). -/
def CopyOp.keepOld (o : CopyOp) (s : State) (core : Nat) : Sparse (Option Byte) :=
  if o.blocks || !o.overlaps then o.old
  else (unitBytes s core o).foldl (fun m pa => if (sget none m pa).isSome then m else sset none m pa (some (s.byte pa))) o.old

/-! Faults (R319 to R321). -/

/-- A fault record (Table 12.6), as one number. -/
def faultRecord (o : CopyOp) (q cause fcap : Nat) (valid : Bool) (target : Option Nat) (fval : Word) : BitVec 512 :=
  let i := (List.range 8).map fun k => lowBits 20 ((o.index o.prefixN).getD k 0)
  let idx (k : Nat) : Nat := i.getD k 0
  let w0 := q + fcap % 32 * 2 ^ 6 + o.flags.toNat * 2 ^ 11 + (target.getD 0) % 8 * 2 ^ 19 + target.isSome.toNat * 2 ^ 22
    + valid.toNat * 2 ^ 23 + cause * 2 ^ 24 + o.seq % 2 ^ 32 * 2 ^ 32
  BitVec.ofNat 512 (w0 + o.prefixN % 2 ^ 40 * 2 ^ 64 + bytesOf o.dst o.prefixN % 2 ^ 40 * 2 ^ 128
    + (idx 0 + idx 1 * 2 ^ 20 + idx 2 * 2 ^ 40) * 2 ^ 192 + (idx 3 + idx 4 * 2 ^ 20 + idx 5 * 2 ^ 40) * 2 ^ 256
    + (idx 6 + idx 7 * 2 ^ 20) * 2 ^ 320 + fval.toNat * 2 ^ 384)

/-- VALID of a record cleared. -/
def clearValid (r : BitVec 512) : BitVec 512 := r &&& ~~~(BitVec.ofNat 512 (2 ^ 23))

/-- The head of a queue faults: the record is written, the queue halts, and ENGFAULT goes to the issuing strand, which is the strand that its
context then holds (log 94). -/
def State.copyFault (s : State) (core q : Nat) (o : CopyOp) (t : TrapInfo) (target : Option Nat) : State :=
  let c := s.copyQueue core q
  let code := t.cause.code.toNat
  let s := (s.walkedTo (.core core) t.walk).setQueue core q { c with halted := true, record := faultRecord o q code t.tcap.toNat true target t.tval }
  s.post o.strand (mkEvent 2 q .engfault (BitVec.ofNat 64 (code * 2 ^ 8 + q)) (BitVec.ofNat 64 q))

/-! Progress. -/

/-- The head of a queue replaced. -/
def State.setHead (s : State) (core q : Nat) (o : CopyOp) : State :=
  let c := s.copyQueue core q
  s.setQueue core q { c with ops := o :: c.ops.tail }

/-- The head of a queue has completed or is dropped (R298). -/
def State.retireHead (s : State) (core q : Nat) (o : CopyOp) : State :=
  let c := s.copyQueue core q
  let d := advanceDone c.done (o.seq :: c.late) (c.late.length + 1)
  s.setQueue core q { c with ops := c.ops.tail, done := d.1, late := d.2 }

/-- Bytes delivered and not yet subtracted go to the barrier of a CPYB (R314). -/
def State.subtract (s : State) (core q : Nat) (o : CopyOp) : State :=
  match o.kind with
  | .cpyb =>
    let n := bytesOf o.dst o.prefixN
    (s.setHead core q { o with sub := n }).barSub o.auxPa (n - o.sub) 0
  | _ => s

/-- Operations of FABRIC scope wait for the acknowledgements of what they posted and, since a release is cumulative, of what the partition has
posted before (R411, R461). -/
def CopyOp.visible (o : CopyOp) (s : State) : Bool := decide (o.scope ≠ 5) || !(s.posted (s.pidOf o.strand))

/-- The operands that check 3 is made on again (R323, R325). -/
def CopyOp.operands (o : CopyOp) : List (Cap × Nat) :=
  match o.kind with
  | .cfill _ => [(o.dst, o.dstReg)]
  | .cpf => []
  | .cpy => [(o.src, o.srcReg), (o.dst, o.dstReg)]
  | .cpym _ => [(o.src, o.srcReg), (o.dst, o.dstReg)]
  | _ => [(o.src, o.srcReg), (o.dst, o.dstReg), (o.aux, o.auxReg)]

/-- The first stale operand. -/
def CopyOp.stale (o : CopyOp) (s : State) (p : Partition) : Option TrapInfo :=
  o.operands.findSome? fun e => (staleRecord s p e.1).map fun r =>
    { cause := .capStale, tval := r, tcap := BitVec.ofNat 64 e.2 }

/-- The partition of a core. -/
def State.partOfCore (s : State) (core : Nat) : Partition :=
  match s.pidOfCluster (core / 8) with
  | some p => s.part p
  | none => Partition.reset

/-- COPY_START: the head starts or resumes. -/
def copyStart (core q : Nat) (s : State) : State :=
  let c := s.copyQueue core q
  match c.ops with
  | [] => s
  | o :: _ =>
    if c.halted || o.started then s
    else match o.stale s (s.partOfCore core) with
      | some t =>
        if o.kind = .cpf then s.setHead core q { o with started := true }
        else if o.visible s then
          (s.subtract core q o).copyFault core q { o with sub := bytesOf o.dst o.prefixN } t none
        else s
      | none => s.setHead core q { o with started := true }

/-- COPY_UNIT_DELIVER: the head's next unit. What the last one leaves to subtract goes with the flags at completion, so that the phase it
completes shows both (R268, R314). -/
def copyDeliver (core q : Nat) (s : State) : State :=
  let c := s.copyQueue core q
  match c.ops with
  | [] => s
  | o :: _ =>
    if c.halted || !o.started || decide (o.kind = .cpf) || decide (elemCount o.dst ≤ o.prefixN) || s.seamHolds (s.pidOf o.strand) then s
    else match deliverUnit s core o with
      | .ok (s', f) =>
        let o := { o with prefixN := o.prefixN + o.unit, flags := o.flags ||| f, old := o.keepOld s core }
        let s' := s'.setHead core q o
        if o.visible s' ∧ o.prefixN < elemCount o.dst then s'.subtract core q o else s'
      | .error e =>
        if o.visible s then
          let s := s.subtract core q o
          s.copyFault core q { o with sub := bytesOf o.dst o.prefixN } e.fail.info (e.core.map (· % 8))
        else s

/-- What a CPYW or CPYB does as it completes; a failing completion word is a fault of the copy (R313). -/
def copyEnd (core q : Nat) (o : CopyOp) (s : State) : State :=
  match o.kind with
  | .cpyw v =>
    match engElem s core o.aux o.auxReg useWrite [0] with
    | .error e => s.copyFault core q o e.info none
    | .ok e =>
      let s := (s.engTouch core e 8 true).retireHead core q o
      let s := if s.isPeer e.pa then { s with unacked := sset 0 s.unacked o.strand (sget 0 s.unacked o.strand + 1) } else s
      s.completionWord o.strand q e.pa e.va v
  | .cpyb => (s.retireHead core q o).barSub o.auxPa (bytesOf o.dst o.prefixN - o.sub) o.flags
  | _ => s.retireHead core q o

/-- COPY_COMPLETE. At FABRIC it is a cumulative release: it waits for every posted packet of the partition (R411). -/
def copyComplete (core q : Nat) (s : State) : State :=
  let c := s.copyQueue core q
  match c.ops with
  | [] => s
  | o :: _ =>
    if c.halted || !o.started || decide (o.kind = .cpf) || decide (o.prefixN < elemCount o.dst)
        || (decide (o.scope = 5) && s.posted (s.pidOf o.strand)) || s.seamHolds (s.pidOf o.strand) then s
    else copyEnd core q o s

/-- The index vectors of a prefetch: every entry from its origin up to its extent (R317). -/
def boxFrom (dims : List (Int × Int)) (o : List Int) : List (List Int) :=
  match dims with
  | [] => [[]]
  | (e, _) :: rest =>
    let lo := (max 0 (o.headD 0)).toNat
    (boxFrom rest o.tail).flatMap fun t => (List.range (e.toNat - lo)).map fun i => Int.ofNat (lo + i) :: t

/-- The addresses that name the lines of an element. -/
def prefetchAddrs (c : Cap) (idx : List Int) : List Int :=
  if c.sparse ≠ 0 then
    let g : Int := (c.base : Int) + dotDims c.view.dims idx / 64 * groupSize c.fmt c.sparse
    (List.range (groupSize c.fmt c.sparse / 8)).map fun k : Nat => g + 8 * Int.ofNat k
  else [elemByte c idx]

/-- A line that a prefetch may request: of a GDDR7 page, whatever its ordering kind (log 92). One whose block does not verify is left out (R451,
log 84). -/
def prefetchElem (s : State) (core : Nat) (c : Cap) (va : Int) : Option Elem :=
  let align : Int := if c.sparse ≠ 0 then 8 else if c.fmt = fmtI4X then 1 else Int.ofNat (esize c.fmt)
  if va % align ≠ 0 ∨ va < 0 then none
  else match translate s (s.pidOfCluster (core / 8)) va.toNat useRead with
    | .error _ => none
    | .ok (l, pa) =>
      match s.place pa with
      | .gddr _ =>
        let e : Elem := { va := va.toNat, pa := pa, leaf := l, integ := none }
        if l.integ then (s.integFor none useRead align.toNat pa c.objid).map fun i => { e with integ := some i } else some e
      | _ => none

/-- CPF_COMPLETE: every line is requested once, and the prefetch completes. -/
def cpfComplete (core q : Nat) (s : State) : State :=
  let c := s.copyQueue core q
  match c.ops with
  | [] => s
  | o :: _ =>
    if c.halted || !o.started || decide (o.kind ≠ .cpf) then s
    else
      let addrs := if (staleRecord s (s.partOfCore core) o.src).isSome then []
        else (boxFrom o.src.view.dims o.origin).flatMap (prefetchAddrs o.src)
      let es := addrs.filterMap (prefetchElem s core o.src)
      let once := es.foldl (fun acc e => if acc.any fun d => decide (d.pa / 128 = e.pa / 128) then acc else acc ++ [e]) []
      let s := addrs.foldl (fun s va => s.walkFor (.core core) (s.pidOfCluster (core / 8)) va.toNat useRead) s
      (once.foldl (fun s e => s.engTouch core e 1 false) s).retireHead core q o

/-- One cycle of a queue: it starts, delivers a unit, or completes. -/
def copyTick (core q : Nat) (s : State) : State :=
  match (s.copyQueue core q).ops with
  | [] => s
  | o :: _ =>
    if o.started = false then copyStart core q s
    else if o.kind = .cpf then cpfComplete core q s
    else if o.prefixN < elemCount o.dst then copyDeliver core q s
    else copyComplete core q s

/-! Control (R322 to R326). -/

/-- CPRESUME. -/
def effCpresume (a : EfArgs) (s : State) : Except Stop State :=
  let core := coreOf s.cur
  let c := s.copyQueue core a.q
  .ok (if c.halted then
    s.setQueue core a.q { c with halted := false, record := clearValid c.record,
                                 ops := match c.ops with
                                   | o :: rest => { o with started := false } :: rest
                                   | [] => [] }
  else s)

/-- CPABORT and CPABORT.B. -/
def effCpabort (a : EfArgs) (s : State) : Except Stop State :=
  let core := coreOf s.cur
  let c := s.copyQueue core a.q
  match c.halted, c.ops with
  | true, o :: _ =>
    let s := (s.setQueue core a.q { c with halted := false, record := clearValid c.record }).retireHead core a.q o
    .ok (if a.ca.val = 1 ∧ o.kind = .cpyb then s.barSub o.auxPa (bytesOf o.dst (elemCount o.dst) - o.sub) o.flags else s)
  | _, _ => .ok s

/-- CPSTAT (Table 12.7). -/
def effCpstat (a : EfArgs) (s : State) : Except Stop State :=
  let c := s.copyQueue (coreOf s.cur) a.q
  let sel := (s.me.readX a.xc).toNat % 16
  let v := if sel = 0 then c.halted.toNat * 2 ^ 15 + c.ops.length
    else if sel ≤ 8 then c.record.toNat / 2 ^ (64 * (sel - 1)) % 2 ^ 64
    else 0
  .ok (s.putX 0 a.xc (BitVec.ofNat 64 v))

/-- The number of the last operation completed in an unbroken run: queue 0 to 3, or 4 for MQ. -/
def Core.doneOf (k : Core) (q : Nat) : Nat := if q = 4 then k.mqDone else (sget CopyQueue.reset k.cq q).done
/-- The number of the last operation accepted. -/
def Core.issuedOf (k : Core) (q : Nat) : Nat := if q = 4 then k.mqIssued else (sget CopyQueue.reset k.cq q).issued

/-- QFENCE: what it waits for is fixed when it first issues. -/
def effQfence (a : EfArgs) (s : State) : Except Stop State :=
  let k := s.myCore
  let targets := match s.me.wait with
    | .fence t => t
    | _ => ((List.range 5).filter (bitOf a.cb.val)).map fun q => (q, k.issuedOf q)
  if targets.all fun t => decide (t.2 ≤ k.doneOf t.1) then .ok s else .error (.park (.fence targets))

/-! As the issue logic sees them. -/

/-- A copy with a vector operand; `aux` is whether it names c(cb+1). -/
def bodyCopy (a : EfArgs) (aux : Bool) (eff : State → Except Stop State) : Body :=
  { reads := [rc a.ca, rc a.cb] ++ (if aux then [rc (a.cb.val + 1)] else []) ++ [rv a.xc], sc := a.sc, eff := fun _ => eff }

/-- CPY. -/
def bodyCpy (a : EfArgs) : Body := bodyCopy a false (effCpy a)
/-- CPYW. -/
def bodyCpyw (a : EfArgs) : Body := bodyCopy a true (effCpyw a)
/-- CPYB. -/
def bodyCpyb (a : EfArgs) : Body := bodyCopy a true (effCpyb a)
/-- CPYS. -/
def bodyCpys (a : EfArgs) : Body := bodyCopy a true (effCpys a)
/-- CPYM. -/
def bodyCpym (a : EfArgs) : Body := bodyCopy a false (effCpym a)
/-- CPF. -/
def bodyCpf (a : EfArgs) : Body := { reads := [rc a.cb, rv a.xc], sc := a.sc, eff := fun _ => effCpf a }
/-- CFILL. -/
def bodyCfill (a : EfArgs) : Body := { reads := [rc a.ca, rx a.xc], sc := a.sc, eff := fun _ => effCfill a }
/-- CPRESUME. -/
def bodyCpresume (a : EfArgs) : Body := { reads := [], sc := a.sc, eff := fun _ => effCpresume a }
/-- CPABORT. -/
def bodyCpabort (a : EfArgs) : Body := { reads := [], sc := a.sc, eff := fun _ => effCpabort a }
/-- CPSTAT. -/
def bodyCpstat (a : EfArgs) : Body := { reads := [rx a.xc], writes := [rx a.xc], sc := a.sc, eff := fun _ => effCpstat a }
/-- QFENCE. -/
def bodyQfence (a : EfArgs) : Body := { reads := [], sc := a.sc, eff := fun _ => effQfence a }

end Sys2Proof.Machine
end

