-- ==== Sys2Proof/Machine/Lifetime.lean ====
section
/-! DEFINITION. Object lifetime (R435 to R439), task frames (R440), the Unpicker (R441 to R443) and version counters (R449, R450). -/

namespace Sys2Proof.Machine

/-! The object table. -/

/-- Word `k` of entry `i` written. -/
def State.setObjWord (s : State) (p : Partition) (i k v : Nat) : State := s.store (objAt p i + 8 * k) 8 v

/-- STATE and GEN of an entry written; its flags, slot and owner are kept. -/
def State.setObjState (s : State) (p : Partition) (i st gen : Nat) : State :=
  s.setObjWord p i 2 (objWord s p i 2 / 2 ^ 10 * 2 ^ 10 + st * 2 ^ 8 + gen)

/-- Step 2 of R438 on an entry that matches: GEN + 1 and FREE, or QUAR with QSEQ = NEXT at GEN 255. -/
def State.stepObject (s : State) (p : Partition) (i : Nat) : State :=
  let g := objGen s p i
  if g < 255 then s.setObjState p i 2 (g + 1)
  else (s.setObjState p i 1 g).setObjWord p i 3 (p.sweepNext % 2 ^ 31)

/-- A sweep is requested (R443): it starts, or becomes pending, or nothing changes. -/
def Partition.sweepGo (p : Partition) : Partition :=
  if p.sweepActive = false then
    { p with sweepActive := true, sweepNext := (p.sweepNext + 1) % 2 ^ 31, sweepHere := false, sweepThere := false }
  else { p with sweepPend := true }

/-- The privilege check of the lifetime instructions (R436). -/
def sysOnly (s : State) : Except Stop Unit := need s.me.sys .priv 0 0

/-- The partition number of the current strand. -/
def State.myPid (s : State) : Nat := (s.pidOf s.cur).getD 0

/-- Extents and strides above the rank are zero. -/
def Cap.zeroAbove (c : Cap) : Bool :=
  decide (c.bits.toNat / 2 ^ (128 + 20 * c.rank) % 2 ^ (160 - 20 * c.rank) = 0)
    && decide (c.bits.toNat / 2 ^ (288 + 28 * c.rank) % 2 ^ (224 - 28 * c.rank) = 0)

/-- OALLOC (R437). BASE and LENGTH take the low 55 bits of their bounds (R7); the BASE of an empty span is a free value (log 42). -/
def effOalloc (a : RArgs) (s : State) : Except Stop State := do
  let t := s.me.readC a.rs1
  let w := (s.me.readX a.rs2).toNat
  let i := w % 2 ^ 20
  let p := s.myPart
  need (!(bitOf w 23) && decide (w < 2 ^ 52) && decide (i ≠ 0xFFFFF)) .illegal (BitVec.ofNat 64 (encR 0x3E 5 a)) 0
  need (decide (t.otype = 0)) .capSeal (BitVec.ofNat 64 t.otype) a.rs1
  need (t.codesOk && shaped t.view && t.zeroAbove) .capFormat t.word1 a.rs1
  need (decide (2 ≤ t.reach)) .capReach (BitVec.ofNat 64 t.reach) a.rs1
  let blocky := bitOf w 20 || bitOf w 21
  let f := s.fresh
  let free : Int := Int.ofNat (f.1.toNat % 2 ^ 55)
  let r := (span t).getD (free, free)
  need (!(blocky && (span t).isSome && (decide (r.1 % 256 ≠ 0) || decide (r.2 % 256 ≠ 0)))) .capFormat t.word1 a.rs1
  need (decide (i < objCount p)) .capStale (BitVec.ofNat 64 (3 * 2 ^ 36 + i)) 0
  need (decide (objState s p i = 2)) .capStale
    (BitVec.ofNat 64 (objState s p i * 2 ^ 36 + objGen s p i * 2 ^ 28 + i)) 0
  let s1 := if (span t).isSome then s else f.2
  let base := lowBits 55 r.1
  let len := lowBits 55 (r.2 - r.1)
  let g := objGen s p i
  let w2 := g + w / 2 ^ 20 % 8 * 2 ^ 10 + w / 2 ^ 24 % 2 ^ 16 * 2 ^ 16 + w / 2 ^ 40 % 2 ^ 12 * 2 ^ 32
  let s2 := (((s1.setObjWord p i 0 base).setObjWord p i 1 len).setObjWord p i 2 w2).setObjWord p i 3 0
  .ok (s2.putC 0 a.rd { ((t.setField 64 20 i).setField 56 8 g) with tag := true })

/-- Checks 1 to 3 on an operand of OFREE and VERSTEP. -/
def checkLive (s : State) (reg : Nat) : Except Stop Unit := do
  checkTagSeal (s.me.readC reg) reg
  checkGen s s.myPart (s.me.readC reg) reg

/-- A capability that has passed its generation check addresses an object, whether or not a sweep has since cleared its tag. -/
def Cap.names (c : Cap) (objid : Nat) : Bool := decide (c.objid = objid)

/-- Accesses of a core that have passed their generation check against an object and have not been performed (R44, R325): matrix
operations, waiting bank requests and arrivals, and started copies that are not halted. -/
def Core.uses (k : Core) (s : State) (objid : Nat) : Bool :=
  (k.mq.any fun o => o.cap.names objid || o.aux.any fun c => c.names objid)
    || (k.reqs.any fun r => ((s.strand r.strand).readC r.args.rs1).names objid)
    || (k.arrivals.any fun r => ((s.strand r.strand).readC r.args.ca).names objid)
    || (k.cq.any fun q => !q.2.halted && match q.2.ops with
      | o :: _ => o.started && o.operands.any fun e => e.1.names objid
      | [] => false)

/-- The operands of a link operation. -/
def LinkOp.operands (o : LinkOp) : List (Cap × Nat) :=
  [(o.src, o.srcReg.val), (o.dst, o.dstReg.val)] ++ if o.aux = 0 then [] else [(o.auxCap, o.auxReg)]

/-- A strand is parked at a barrier object through a capability of an object. -/
def Strand.barsOn (t : Strand) (objid : Nat) : Bool :=
  match t.wait with
  | .bar _ a => decide (t.status = .parked) && (t.readC a.ca).names objid
  | _ => false

/-- Accesses of a partition to an object that are still to be performed, those of strands that wait at a barrier object or a merge slot among
them. -/
def inFlight (s : State) (pid objid : Nat) : Bool :=
  (s.strands.any fun e => decide (s.pidOf e.1 = some pid) && e.2.barsOn objid)
    || (s.clusters.any fun e => decide (s.pidOfCluster e.1 = some pid) && e.2.mgWait.any fun r => decide (r.objid = objid))
    || (s.cores.any fun e => decide (s.pidOfCluster (e.1 / 8) = some pid) && e.2.uses s objid)
    || (s.dies.any fun d =>
      let q := sget LinkQueue.reset d.2.lq pid
      !q.halted && match q.ops with
        | o :: _ => o.started && o.operands.any fun e => e.1.names objid
        | [] => false)

/-- A write of `[pa, pa + n)` of a page with INTEG that no cache holds waits at the memory controller, by lines (R451). -/
def State.ctrlWrites (s : State) (pid objid pa n : Nat) : State :=
  (lineParts pa n).foldl (fun s p =>
    match s.place (pa + p.1) with
    | .gddr d =>
      let m := byteMask (pa + p.1) p.2
      let s := s.keepUnder (pa + p.1) m
      s.setDie d { s.die d with
        writes := (s.die d).writes ++ [{ pid := pid, line := lineOf (pa + p.1), bytes := m, objid := objid }] }
    | _ => s) s

/-- Bytes zeroed, their tags cleared. -/
def State.zeroBytes (s : State) (pa n : Nat) : State :=
  if s.isPeer pa then s.store pa n 0
  else
    let s := ({ s with mem := sclear pa (pa + n) s.mem, tags := tagsClear s.tags pa n } : State).markDirty pa
    ((lineParts pa n).foldl (fun s p => s.noteLine (pa + p.1)) s).dropRecords pa n

/-- The bytes of `[va, hi)` zeroed page by page for an object, where the partition maps them; those of a page with INTEG get their MACs. -/
def zeroRange (pid objid : Nat) (hi : Nat) (pages va : Nat) (s : State) : State :=
  match pages with
  | 0 => s
  | k + 1 =>
    let n := min (hi - va) (2 ^ 16 - va % 2 ^ 16)
    let s := match translate s (some pid) va useRead with
      | .ok (l, pa) => (if l.integ then s.ctrlWrites pid objid pa n else s).zeroBytes pa n
      | .error _ => s
    zeroRange pid objid hi k (va + n) s

/-- The bytes [BASE, BASE + LENGTH) of an entry with ZFREE (R438, step 4). -/
def freeSpan (s : State) (p : Partition) (i : Nat) : Option (Nat × Nat) :=
  if objZfree s p i ∧ objLength s p i ≠ 0 then some (objBase s p i, objBase s p i + objLength s p i) else none

/-- The object caches of a partition on this card lose an entry (R438, step 3). -/
def State.dropObject (s : State) (pid objid : Nat) : State :=
  let f (k : Core) : Core := { k with objc := k.objc.filter fun e => !(decide (e.pid = pid) && decide (e.objid = objid)) }
  { s with cores := smapv Core.reset f s.cores }

/-- Step 4 of R438 on the bytes that the entry named in step 2. -/
def State.freeBytes (s : State) (pid objid : Nat) (zero : Option (Nat × Nat)) : State :=
  match zero with
  | some (lo, hi) => zeroRange pid objid hi ((hi + 2 ^ 16 - 1) / 2 ^ 16 - lo / 2 ^ 16) lo s
  | none => s

/-- OFREE (R438): it waits until the accesses to the object have been performed; the checks made again then are the second check of
step 2. For a paired partition it is a release at FABRIC, tells the peer, and waits until the peer's object caches have dropped the entry. -/
def effOfree (a : RArgs) (s : State) : Except Stop State := do
  checkLive s a.rs1
  let i := (s.me.readC a.rs1).objid
  let p := s.myPart
  if inFlight s s.myPid i || (p.paired.isSome && s.posted (s.pidOf s.cur)) then .error (.park .retry)
  else
    let s1 := ((s.l1Release (coreOf s.cur) s.myPid).stepObject p i).dropObject s.myPid i
    if p.paired.isSome then
      let s2 : State := { s1 with
        outbox := s1.outbox ++ [Reply.peerOfree s.myPid i], unacked := sset 0 s1.unacked s.cur (sget 0 s1.unacked s.cur + 1) }
      .ok (s2.setMe (s1.me.parked (.ofreePeer a (freeSpan s p i))))
    else .ok (s1.freeBytes s.myPid i (freeSpan s p i))

/-- SWEEPGO (R443). -/
def effSweepgo (a : RArgs) (s : State) : Except Stop State :=
  .ok ((s.onPart Partition.sweepGo).putX 0 a.rd (BitVec.ofNat 64 s.myPart.sweepNext))

/-- SWEEPSTAT (Table 21.6). -/
def effSweepstat (a : RArgs) (s : State) : Except Stop State :=
  let p := s.myPart
  .ok (s.putX 0 a.rd (BitVec.ofNat 64 (p.sweepActive.toNat * 2 ^ 63 + p.sweepPend.toNat * 2 ^ 62
    + p.sweepNext % 2 ^ 31 * 2 ^ 31 + p.sweepDone % 2 ^ 31)))

/-- VERSTEP (R450). -/
def effVerstep (a : RArgs) (s : State) : Except Stop State := do
  checkLive s a.rs1
  let p := s.myPart
  let i := (s.me.readC a.rs1).objid
  need (objInteg s p i || objEnc s p i) .capPerm 0 a.rs1
  match versionSlot s p i with
  | none => fault .integrity (BitVec.ofNat 64 (objVslot s p i)) a.rs1
  | some n =>
    need (decide (s.version n ≠ BitVec.allOnes 48)) .integrity (BitVec.ofNat 64 (objVslot s p i)) a.rs1
    let s := s.l1Release (coreOf s.cur) s.myPid
    .ok { s with versions := sset 0 s.versions n (s.version n + 1) }

/-! Task frames (R440). -/

/-- The index ci of a context. -/
def frameIndex (s : State) (pid n : Nat) : Nat := 16 * corePos s pid (coreOf n) + n % 16

/-- Bytes of a frame. -/
def frameSize (p : Partition) : Nat := 4096 * 2 ^ p.desc.framesz.val

/-- A frame object ID of a context. -/
def frameObj (s : State) (pid n sel : Nat) : Nat := (s.part pid).desc.frameid.toNat + 2 * frameIndex s pid n + sel

/-- Some frame ID of a context is not QUAR. -/
def frameReady (s : State) (pid n : Nat) : Bool :=
  decide (objState s (s.part pid) (frameObj s pid n 0) ≠ 1) || decide (objState s (s.part pid) (frameObj s pid n 1) ≠ 1)

/-- PERMS of a frame root: LD, ST, LDC, STC, LOCW, ATOM, SYNC, DMA. -/
def framePerms : Nat := 0x1DF

/-- The root of a frame. -/
def frameRoot (base gen objid size : Nat) : Cap :=
  ({ tag := true, base := base, gen := gen, objid := objid, fmt := 0, sparse := 0, layout := 0, perms := BitVec.ofNat 14 framePerms,
     reach := 1, otype := 0, dims := [(Int.ofNat size, 1)] } : View).cap

/-- At a task's start the active frame entry is made LIVE at the GEN that it holds, and c30 receives its root; a quarantined ID gives way to the
other. -/
def State.startFrame (s : State) (pid n : Nat) : State × Cap :=
  let p := s.part pid
  let t := s.strand n
  let sel := if objState s p (frameObj s pid n t.frameSel) = 1 ∧ objState s p (frameObj s pid n (1 - t.frameSel)) ≠ 1
    then 1 - t.frameSel else t.frameSel
  let i := frameObj s pid n sel
  let base := p.desc.frameva.toNat + frameSize p * frameIndex s pid n
  let g := objGen s p i
  let s := s.setStrand n { t with frameSel := sel }
  let s := if i < objCount p then
      (((s.setObjWord p i 0 base).setObjWord p i 1 (frameSize p)).setObjWord p i 2 g).setObjWord p i 3 0
    else s
  (s, frameRoot base g i (frameSize p))

/-- At TEND the active frame ID is stepped; when it enters QUAR the other becomes active and a sweep is requested. -/
def State.endFrame (s : State) (pid n : Nat) : State :=
  let p := s.part pid
  let t := s.strand n
  let i := frameObj s pid n t.frameSel
  if i < objCount p ∧ objState s p i = 0 then
    let s1 := s.stepObject p i
    if objGen s p i < 255 then s1
    else (s1.setStrand n { t with frameSel := 1 - t.frameSel }).setPart pid (s1.part pid).sweepGo
  else s

/-! The Unpicker (R441). -/

/-- A strand's capabilities visited: its c registers and results on their way, PCC, and its trusted stack. -/
def Strand.visit (t : Strand) (f : Cap → Cap) : Strand :=
  { t with
    c := (t.c.map fun e => (e.1, f e.2)).filter fun e => decide (e.2 ≠ Cap.null)
    pcc := f t.pcc
    pend := t.pend.map fun w => match w.val with
      | .c v => { w with val := .c (f v) }
      | _ => w
    frames := t.frames.map fun r => { r with pcc := f r.pcc, c30 := f r.c30, c31 := f r.c31 } }

/-- A core's engine queue entries visited. -/
def Core.visit (k : Core) (f : Cap → Cap) : Core :=
  { k with
    mq := k.mq.map fun o => { o with cap := f o.cap, aux := o.aux.map f }
    cq := k.cq.map fun q => (q.1, { q.2 with ops := q.2.ops.map fun o => { o with dst := f o.dst, src := f o.src, aux := f o.aux } }) }

/-- A cluster's link buffers, method cache, KMU slots, waiting KVSUBs and launch records visited. -/
def Cluster.visit (c : Cluster) (f : Cap → Cap) : Cluster :=
  { c with
    links := c.links.map fun l => (l.1, l.2.map fun e => match e.val with
      | .c v => { e with val := .c (f v) }
      | _ => e)
    mcache := c.mcache.map fun m => { m with entry := f m.entry }
    kv := (c.kv.map fun k => (k.1, { k.2 with kpool := f k.2.kpool, vpool := f k.2.vpool })).filter fun k => decide (k.2 ≠ KvSlot.reset)
    kvWait := c.kvWait.map fun r => { r with kpool := f r.kpool, vpool := f r.vpool }
    launches := c.launches.map fun e => (e.1, e.2.map fun l =>
      { l with ops := l.ops.map f, c31 := f l.c31, method := { l.method with entry := f l.method.entry },
               converts := l.converts.map fun v => { v with src := f v.src, buf := f v.buf, region := f v.region, pool := f v.pool,
                                                            method := { v.method with entry := f v.method.entry } } }) }

/-- A core's strands and queues visited. -/
def State.visitCore (s : State) (p : Partition) (core : Nat) : State :=
  let f := visited s p
  let s := s.setCore core ((s.core core).visit f)
  (List.range 16).foldl (fun s k => s.setStrand (16 * core + k) ((s.strand (16 * core + k)).visit f)) s

/-- A cluster visited. -/
def State.visitCluster (s : State) (p : Partition) (cl : Nat) : State := s.setCluster cl ((s.cluster cl).visit (visited s p))

/-- CONVPOOL, TVEC and the entries of the partition's link queues visited. -/
def State.visitPart (s : State) (pid : Nat) : State :=
  let p := s.part pid
  let f := visited s p
  let lq (d : Nat) : LinkQueue :=
    let q := sget LinkQueue.reset (s.die d).lq pid
    { q with ops := q.ops.map fun o => { o with dst := f o.dst, src := f o.src, auxCap := f o.auxCap } }
  let s := s.setPart pid { p with tvecCode := f p.tvecCode, tvecData := f p.tvecData, convpool := f p.convpool }
  [0, 1].foldl (fun s d => s.setDie d { s.die d with lq := sset LinkQueue.reset (s.die d).lq pid (lq d) }) s

/-- A granule belongs to a partition: its GDDR7, or the scratchpad of one of its cores. -/
def ownsGranule (s : State) (pid pa : Nat) : Bool :=
  match s.place pa with
  | .gddr _ =>
    match s.regionOf pa with
    | some r => decide (r.pid = pid)
    | none => false
  | .bank core _ => decide (s.pidOfCluster (core / 8) = some pid)
  | _ => false

/-- Every tagged granule of a partition visited. -/
def State.visitMemory (s : State) (pid : Nat) : State :=
  let p := s.part pid
  { s with tags := s.tags.filter fun e =>
      !(ownsGranule s pid (64 * e.1) && (staleRecord s p (s.loadCap (64 * e.1))).isSome) }

/-- The capability in a granule of saved scratchpad. -/
def Saved.cap (v : Saved) (g : Nat) : Cap :=
  { tag := sget false v.tags g,
    bits := BitVec.ofNat 512 ((List.range 64).foldl (fun n i => n + (sget memDefault v.mem (64 * g + i)).toNat * 2 ^ (8 * i)) 0) }

/-- Saved state of a descheduled partition visited. -/
def Saved.visit (v : Saved) (f : Cap → Cap) : Saved :=
  { v with tags := v.tags.filter fun e => (f (v.cap e.1)).tag
           strands := (v.strands.map fun e => (e.1, e.2.visit f)).filter fun e => decide (e.2 ≠ Strand.reset),
           cores := (v.cores.map fun e => (e.1, e.2.visit f)).filter fun e => decide (e.2 ≠ Core.reset),
           clusters := (v.clusters.map fun e => (e.1, e.2.visit f)).filter fun e => decide (e.2 ≠ Cluster.reset) }

/-- Every location of a partition visited. -/
def State.visitAll (s : State) (pid : Nat) : State :=
  let mine (cl : Nat) : Bool := decide (s.pidOfCluster cl = some pid)
  let s := (s.visitMemory pid).visitPart pid
  let s := ((List.range 256).filter fun c => mine (c / 8)).foldl (fun s c => s.visitCore (s.part pid) c) s
  let s := ((List.range 32).filter mine).foldl (fun s c => s.visitCluster (s.part pid) c) s
  let p := s.part pid
  s.setPart pid { p with saved := p.saved.map fun v => v.visit (visited s p) }

/-- QUAR entries that a sweep of number `n` may release become FREE at GEN 0 (R439). -/
def releaseQuar (p : Partition) (n i : Nat) (s : State) : State :=
  match i with
  | 0 => s
  | k + 1 =>
    let q := objWord s p k 3 % 2 ^ 31
    let s := if objState s p k = 1 ∧ (n + 2 ^ 31 - q) % 2 ^ 31 < 2 ^ 30 then s.setObjState p k 2 0 else s
    releaseQuar p n k s

/-- The active sweep of a partition ends (R443): entries are released, a pending sweep starts, and the monitor is told. -/
def State.sweepEnd (s : State) (pid : Nat) : State :=
  let p := s.part pid
  let n := (p.sweepNext + 2 ^ 31 - 1) % 2 ^ 31
  let s := releaseQuar p n (objCount p) s
  let p := { s.part pid with sweepDone := (n + 1) % 2 ^ 31, sweepActive := false, sweepPend := false }
  (s.setPart pid (if (s.part pid).sweepPend then p.sweepGo else p)).interrupt pid 0x04

/-- This card completes the active sweep of a partition (R443): everything still to be visited is visited. That of a paired partition ends
when the peer card has completed it too. -/
def State.sweepDone (s : State) (pid : Nat) : State :=
  if (s.part pid).sweepActive = false ∨ (s.part pid).run = .descheduled then s
  else
    let s := s.visitAll pid
    if (s.part pid).paired.isNone ∨ (s.part pid).sweepThere = true then s.sweepEnd pid
    else if (s.part pid).sweepHere then s
    else { s.setPart pid { s.part pid with sweepHere := true } with outbox := s.outbox ++ [.peerSweep pid] }

/-- The peer card has completed its half of the active sweep of a paired partition. -/
def State.sweepPeer (s : State) (pid : Nat) : State :=
  if (s.part pid).sweepActive = false ∨ (s.part pid).paired.isNone then s
  else if (s.part pid).sweepHere then s.sweepEnd pid
  else s.setPart pid { s.part pid with sweepThere := true }

/-- SWEEP_COMPLETE: of this card's half, or of the peer card's. -/
def sweepComplete (pid : Nat) (peer : Bool) (s : State) : State := if peer then s.sweepPeer pid else s.sweepDone pid

/-- One visit of a location (R441). -/
def State.sweepVisit (s : State) (pid : Nat) (l : SweepLoc) : State :=
  let p := s.part pid
  if p.sweepActive = false ∨ p.run = .descheduled then s
  else match l with
    | .granule pa => if ownsGranule s pid pa then s.visitGranule p pa else s
    | .core n => if s.pidOfCluster (n / 8) = some pid then s.visitCore p n else s
    | .cluster n => if s.pidOfCluster n = some pid then s.visitCluster p n else s
    | .partition => s.visitPart pid

/-- The Unpicker's turn: an active sweep completes now or later, as it pleases (log 4). -/
def sweepTick (pid : Nat) (s : State) : State :=
  if (s.part pid).sweepActive then
    let later := Config.freeChoice s.freeCtr 1 % 2
    let s := { s with freeCtr := s.freeCtr + 1 }
    if later = 1 then s else s.sweepDone pid
  else s

/-- A capability that leaves its core for another unit is visited in its register first while a sweep is active (R442). -/
def State.visitReg (s : State) (reg : Nat) : State :=
  if s.myPart.sweepActive then
    let t := s.me
    s.setMe { t with c := sset Cap.null t.c reg (visited s s.myPart (sget Cap.null t.c reg)) }
  else s

/-! As the issue logic sees them. -/

/-- OALLOC. -/
def bodyOalloc (a : RArgs) : Body :=
  { reads := [rc a.rs1, rx a.rs2], sync := if a.sr then some (rc a.rs1) else none, writes := [rc a.rd], sc := a.sc, pre := sysOnly,
    eff := fun _ => effOalloc a }
/-- A lifetime instruction on one capability. -/
def bodyLive (a : RArgs) (eff : State → Except Stop State) : Body :=
  { reads := [rc a.rs1], sync := if a.sr then some (rc a.rs1) else none, sc := a.sc, pre := sysOnly, eff := fun _ => eff }
/-- OFREE. -/
def bodyOfree (a : RArgs) : Body := bodyLive a (effOfree a)

/-- An OFREE of a paired partition that waits for the peer completes once every packet of its strand has been acknowledged (R438, R458). -/
def ofreeTick (n : Nat) (s : State) : State :=
  let t := s.strand n
  match t.status, t.wait with
  | .parked, .ofreePeer a zero =>
    if sget 0 s.unacked n = 0 then
      let pid := (s.pidOf n).getD 0
      (s.freeBytes pid (t.readC a.rs1).objid zero).completed n ((t.begin (bodyOfree a)).goOn s.cycle a.sc)
    else s
  | _, _ => s
/-- VERSTEP. -/
def bodyVerstep (a : RArgs) : Body := bodyLive a (effVerstep a)
/-- SWEEPGO. -/
def bodySweepgo (a : RArgs) : Body := { reads := [], writes := [rx a.rd], sc := a.sc, pre := sysOnly, eff := fun _ => effSweepgo a }
/-- SWEEPSTAT. -/
def bodySweepstat (a : RArgs) : Body := { reads := [], writes := [rx a.rd], sc := a.sc, eff := fun _ => effSweepstat a }

end Sys2Proof.Machine
end

