-- ==== Sys2Proof/Machine/Links.lean ====
section
/-! DEFINITION. Register links (R332 to R336) and skeins (R337 to R340). -/

namespace Sys2Proof.Machine

/-! PUTR. -/

/-- The class in PUTR's rd field. -/
def putClass (a : RArgs) : RegCls :=
  match a.rd.val % 4 with
  | 0 => .x
  | 1 => .c
  | _ => .v

/-- The direction in it: 0 NX, 1 PV. -/
def putDir (a : RArgs) : Nat := a.rd.val / 4 % 2

/-- The register that PUTR sends. -/
def putSource (a : RArgs) : RegRef := { cls := putClass a, num := a.rs1 }

/-- The core that a link of a core leads to. -/
def linkTarget (core dir : Nat) : Nat := core / 8 * 8 + (core % 8 + (if dir = 0 then 1 else 7)) % 8

/-- A link buffer. -/
def State.link (s : State) (core dir : Nat) : List LinkEntry := sget [] (s.cluster (core / 8)).links (2 * (core % 8) + dir)

/-- A link buffer replaced. -/
def State.setLink (s : State) (core dir : Nat) (l : List LinkEntry) : State :=
  let c := s.cluster (core / 8)
  s.setCluster (core / 8) { c with links := sset [] c.links (2 * (core % 8) + dir) l }

/-- PUTR (R333, R334). -/
def effPutr (a : RArgs) (s : State) : Except Stop State := do
  let w := (s.me.readX a.rs2).toNat
  let n := w / 16 % 32
  let cls := putClass a
  need (decide (w < 2 ^ 9) && !(decide (cls ≠ .v) && decide (n = 0))) .illegal (BitVec.ofNat 64 (encR 0x3C 5 a)) 0
  let core := coreOf s.cur
  let dir := putDir a
  let l := s.link core dir
  if 4 ≤ l.length then .error (.park .retry)
  else
    let s := if cls = .c then s.visitReg a.rs1 else s
    let e : LinkEntry := { ctx := w % 16, num := n, val := s.me.value (putSource a), ready := s.cycle + 4, go := false }
    .ok (s.setLink core dir (l ++ [e]))

/-- PUTR as the issue logic sees it. The value is read before the synchronised read empties its register. -/
def bodyPutr (a : RArgs) : Body :=
  { reads := [putSource a, rx a.rs2], sync := if a.sr then some (putSource a) else none, sc := a.sc, eff := fun _ => effPutr a }

/-! Arrivals (R335). -/

/-- The register of an entry. -/
def LinkEntry.reg (e : LinkEntry) : RegRef := { cls := e.val.cls, num := e.num }

/-- A register's full/empty bit is empty. -/
def Strand.isEmpty (t : Strand) (r : RegRef) : Bool :=
  match r.cls with
  | .x => t.emptyX.getLsbD r.num
  | .c => t.emptyC.getLsbD r.num
  | .v => t.emptyV.getLsbD r.num
  | .p => false

/-- A strand can take an arrival in a register: it is empty and not dropped, and R213 does not hold it. -/
def Strand.accepts (t : Strand) (r : RegRef) : Bool :=
  decide (t.status ≠ .free) && decide (t.status ≠ .ended) && t.isEmpty r && !(t.isDropped r) && (t.droppedBy r).isEmpty

/-- The strand that an entry of a link names. -/
def LinkEntry.strand (e : LinkEntry) (core dir : Nat) : Nat := 16 * linkTarget core dir + e.ctx

/-- The head of a link buffer meets R335 now. -/
def linkReady (s : State) (core dir : Nat) : Bool :=
  match s.link core dir with
  | e :: _ => decide (e.ready ≤ s.cycle) && (s.strand (e.strand core dir)).accepts e.reg
  | [] => false

/-- At the start of a cycle: the head that meets R335 is marked. -/
def linkMark (core dir : Nat) (s : State) : State :=
  match s.link core dir with
  | e :: rest => s.setLink core dir ({ e with go := linkReady s core dir } :: rest)
  | [] => s

/-- The head of a link buffer is applied (R335): a write that sets the register full, clears its zero-on-read mark and unties it. -/
def linkApply (core dir : Nat) (s : State) : State :=
  match s.link core dir with
  | e :: rest =>
    let n := e.strand core dir
    (s.setStrand n (((s.strand n).noteWrite e.reg).setReg e.num e.val)).setLink core dir rest
  | [] => s

/-- A strand still takes an arrival in a register that was empty at the start of the cycle. -/
def Strand.stillTakes (t : Strand) (r : RegRef) : Bool :=
  decide (t.status ≠ .free) && decide (t.status ≠ .ended) && !(t.isDropped r) && (t.droppedBy r).isEmpty

/-- At the end of a cycle: a marked head is applied, after the owner's own writes (R25). One whose context has ended, or whose register or
source has come under R213, since the cycle began waits on. -/
def linkTick (core dir : Nat) (s : State) : State :=
  match s.link core dir with
  | e :: _ => if e.go && (s.strand (e.strand core dir)).stillTakes e.reg then linkApply core dir s else s
  | [] => s

/-- Heads marked for a context that starts anew in this cycle lose their mark: at the start of the cycle it held another strand or none. -/
def State.unmarkLinks (s : State) (n : Nat) : State :=
  [0, 1].foldl (fun s dir =>
    let core := linkTarget (coreOf n) (1 - dir)
    match s.link core dir with
    | e :: rest => if e.strand core dir = n then s.setLink core dir ({ e with go := false } :: rest) else s
    | [] => s) s

/-- An arrival towards a register of a strand is in flight (R336): no entry at or ahead of it is held as R336 says. -/
def inFlightTo (s : State) (core dir n : Nat) (r : RegRef) : Bool :=
  let l := s.link core dir
  let held := match l with
    | e :: _ =>
      let t := s.strand (e.strand core dir)
      decide (t.status = .free) || decide (t.status = .ended) || !(t.isEmpty e.reg) || t.isDropped e.reg
    | [] => false
  !held && l.any fun e => decide (e.strand core dir = n) && decide (e.reg = r)

/-! Skeins. -/

/-- A skein of the current strand's cluster. -/
def State.skein (s : State) (cl id : Nat) : Skein := sget Skein.reset (s.cluster cl).skeins id

/-- A skein replaced; one with no members is dissolved. -/
def State.setSkein (s : State) (cl id : Nat) (k : Skein) : State :=
  let c := s.cluster cl
  s.setCluster cl { c with skeins := sset Skein.reset c.skeins id (if k.members = [] then Skein.reset else k) }

/-- The member number of a strand: 16 × core + context of its cluster. -/
def memberOf (n : Nat) : Nat := n % 128

/-- PhaseTest of R339; a dissolved skein has no phase to complete. -/
def Skein.test (k : Skein) : Skein :=
  if k.members ≠ [] ∧ k.members.all (fun m => m.arr && (m.aph == k.phase)) then
    { k with phase := !k.phase, count := k.count + 1 }
  else k

/-- A member joins with ARR = 0; nothing changes when it is one already. -/
def Skein.join (k : Skein) (m : Nat) : Skein :=
  if k.members.any fun e => decide (e.id = m) then k else { k with members := k.members ++ [{ id := m, arr := false, aph := false }] }

/-- A member leaves, and the phase test follows. -/
def Skein.leave (k : Skein) (m : Nat) : Skein :=
  if k.members.any fun e => decide (e.id = m) then Skein.test { k with members := k.members.filter fun e => decide (e.id ≠ m) } else k

/-- The record of a member. -/
def Skein.member (k : Skein) (m : Nat) : Option Member := k.members.find? fun e => decide (e.id = m)

/-- ARR and APH of a member written. -/
def Skein.setMember (k : Skein) (m : Nat) (arr aph : Bool) : Skein :=
  { k with members := k.members.map fun e => if e.id = m then { e with arr := arr, aph := aph } else e }

/-- The skein ID of x[rs1] (R338). -/
def skeinId (f4 : Nat) (a : RArgs) (s : State) : Except Stop Nat := do
  let x := (s.me.readX a.rs1).toNat
  need (decide (x < 64)) .illegal (BitVec.ofNat 64 (encR 0x3C f4 a)) 0
  .ok x

/-- SKJOIN. -/
def effSkjoin (a : RArgs) (s : State) : Except Stop State := do
  let id ← skeinId 6 a s
  let cl := clusterOf s.cur
  let k := (s.skein cl id).join (memberOf s.cur)
  .ok ((s.setSkein cl id k).putX 0 a.rd (BitVec.ofNat 64 k.members.length))

/-- SKLEAVE. -/
def effSkleave (a : RArgs) (s : State) : Except Stop State := do
  let id ← skeinId 7 a s
  let cl := clusterOf s.cur
  let k := (s.skein cl id).leave (memberOf s.cur)
  .ok ((s.setSkein cl id k).putX 0 a.rd (BitVec.ofNat 64 k.members.length))

/-- A released member takes the release. -/
def takeRelease (a : RArgs) (cl id : Nat) (k : Skein) (m : Member) (s : State) : State :=
  ((s.setSkein cl id (k.setMember m.id false m.aph)).l1Acquire (coreOf s.cur)).putX 0 a.rd (flagWord m.aph)

/-- SKBAR (R339). A waiting one is issued again with its arrival recorded. -/
def effSkbar (a : RArgs) (s : State) : Except Stop State := do
  let id ← skeinId 8 a s
  let cl := clusterOf s.cur
  let me := memberOf s.cur
  let k := s.skein cl id
  match k.member me with
  | none => fault .illegal (BitVec.ofNat 64 (encR 0x3C 8 a)) 0
  | some m =>
    if m.arr && decide (m.aph ≠ k.phase) then .ok (takeRelease a cl id k m s)
    else if m.arr then .error (.park .skein)
    else
      let s := s.l1Release (coreOf s.cur) s.myPid
      let k := (k.setMember me true k.phase).test
      match k.member me with
      | some m =>
        if m.aph ≠ k.phase then .ok (takeRelease a cl id k m s)
        else .ok ((s.setSkein cl id k).setMe (s.me.parked .skein))
      | none => .ok s

/-- SKQUERY (Table 14.2). -/
def effSkquery (a : RArgs) (s : State) : Except Stop State := do
  let id ← skeinId 9 a s
  let k := s.skein (clusterOf s.cur) id
  let m := k.member (memberOf s.cur)
  let arrived := (k.members.filter fun e => e.arr && (e.aph == k.phase)).length
  let sarr := match m with
    | some e => e.arr
    | none => false
  .ok (s.putX 0 a.rd (BitVec.ofNat 64 (k.count.toNat * 2 ^ 27 + k.phase.toNat * 2 ^ 26 + sarr.toNat * 2 ^ 25
    + m.isSome.toNat * 2 ^ 24 + arrived * 2 ^ 8 + k.members.length)))

/-- A strand that ends leaves every skein of its cluster (R337). -/
def State.leaveSkeins (s : State) (n : Nat) : State :=
  let cl := clusterOf n
  (s.cluster cl).skeins.foldl (fun s e => s.setSkein cl e.1 ((s.skein cl e.1).leave (memberOf n))) s

/-- A skein instruction as the issue logic sees it. -/
def bodySkein (a : RArgs) (eff : State → Except Stop State) : Body :=
  { reads := [rx a.rs1], sync := if a.sr then some (rx a.rs1) else none, writes := [rx a.rd], sc := a.sc, eff := fun _ => eff }
/-- SKJOIN. -/
def bodySkjoin (a : RArgs) : Body := bodySkein a (effSkjoin a)
/-- SKLEAVE. -/
def bodySkleave (a : RArgs) : Body := bodySkein a (effSkleave a)
/-- SKBAR. -/
def bodySkbar (a : RArgs) : Body := bodySkein a (effSkbar a)
/-- SKQUERY. -/
def bodySkquery (a : RArgs) : Body := bodySkein a (effSkquery a)

end Sys2Proof.Machine
end

