-- ==== Sys2Proof/Machine/Launch.lean ====
section
/-! DEFINITION. Operator dispatch: the method table and cache (R341 to R345), conversion and its pool (R346, R347), stamping (R349),
launch records (R350 to R354), starting tasks (R52, R352), and host launches (R356). -/

namespace Sys2Proof.Machine

/-! The method table. -/

/-- The key of R343. -/
def keyOf (kinds : List Nat) (op : Nat) : Nat :=
  op + kinds.getD 0 0 * 2 ^ 16 + kinds.getD 1 0 * 2 ^ 28 + kinds.getD 2 0 * 2 ^ 40 + kinds.getD 3 0 * 2 ^ 52

/-- The kind of operand `j` in a key. -/
def kindIn (key j : Nat) : Nat := key / 2 ^ (16 + 12 * j) % 2 ^ 12

/-- Where the probes of a key start. -/
def keyHash (key : Nat) : Nat := (key ^^^ key / 2 ^ 16 ^^^ key / 2 ^ 32 ^^^ key / 2 ^ 48) % 2 ^ 16

/-- The entry at a physical address (Table 14.4); none when VALID is 0. -/
def methodAt (s : State) (pa : Nat) : Option Method :=
  let w9 := s.load (pa + 72) 8
  let w10 := s.load (pa + 80) 8
  if bitOf w10 63 then
    some { key := BitVec.ofNat 64 (s.load (pa + 64) 8), entry := s.loadCap pa, line := none, conv := bitOf w10 62, cidx := w10 / 2 ^ 60 % 4,
           ckind := w10 / 2 ^ 48 % 2 ^ 12, cop := s.load (pa + 88) 8 % 2 ^ 16,
           scnt := if w10 / 2 ^ 20 % 16 = 0 then 16 else w10 / 2 ^ 20 % 16, re := bitOf w10 10, rlo := w10 % 32,
           rhi := w10 / 2 ^ 5 % 32, outm := w9 / 2 ^ 48 % 16, outk := (List.range 4).map fun j => w9 / 2 ^ (12 * j) % 2 ^ 12 }
  else none

/-- The probes of a walk (R343): a method and its place. -/
def probe (s : State) (base n key h fuel i : Nat) : Option (Method × Nat) :=
  match fuel with
  | 0 => none
  | k + 1 =>
    let pa := base + 128 * ((h + i) % 2 ^ n)
    match methodAt s pa with
    | none => none
    | some m => if m.key.toNat = key then some (m, pa) else probe s base n key h k (i + 1)

/-- The walk of R343; LOG2N above 16 finds nothing (Table 14.3). -/
def methodWalk (s : State) (p : Partition) (key : Nat) : Option (Method × Nat) :=
  let n := p.mtbase.toNat / 2 ^ 59
  if 16 < n then none else probe s (p.mtbase.toNat % 2 ^ 48 / 128 * 128) n key (keyHash key) (min 16 (2 ^ n)) 0

/-- Two kinds have the same element bit size, and it is that of a format. -/
def sameBits (a b : Nat) : Bool := (fmtBits (a / 64)).isSome && decide (fmtBits (a / 64) = fmtBits (b / 64))

/-- A found entry is well formed (R344). -/
def wellFormed (s : State) (p : Partition) (m : Method) : Bool :=
  let e := m.entry
  let key := m.key.toNat
  e.tag && decide (e.otype ≠ 0) && (staleRecord s p e).isNone && e.has 5 && codeShape e
    && (!m.re || (decide (14 ≤ m.rlo) && decide (m.rlo ≤ m.rhi)))
    && ((List.range 4).all fun j => !(bitOf m.outm j) ||
      (sameBits (m.outk.getD j 0) (kindIn key j) && decide (m.outk.getD j 0 / 8 % 8 = kindIn key j / 8 % 8)))
    && (!m.conv || (kindOk m.ckind && decide (m.ckind / 8 % 8 = 0) && decide (m.ckind / 64 ≠ fmtI4X) && decide (m.ckind / 64 ≠ fmtCAP)
      && sameBits m.ckind (kindIn key m.cidx)))

/-- The first 128-byte line of a method's code read by a cluster's dispatcher (R345). -/
def codeLine (cl pid : Nat) (m : Method) (s : State) : State × Method :=
  let va := m.entry.base / 128 * 128
  match translate s (some pid) va useRead with
  | .error e => (s.walkedTo (.cluster cl) (e.walk (some pid) va), m)
  | .ok (l, pa) =>
    ((s.touchLeaf (.cluster cl) pid va l false).l2Request pid (some va) pa 0 (bitOf l.entry 5) none,
     { m with line := some (BitVec.ofNat 1024 (s.load pa 128)) })

/-- A key looked up (R345): in the cache, whose entries are not judged again, else by a walk whose well-formed result is installed; an entry
read from memory during a sweep is visited first (R442). -/
def lookup (cl pid : Nat) (key : Nat) (s : State) (cache : List Method) : State × List Method × Option Method :=
  match cache.find? fun m => decide (m.key.toNat = key) with
  | some m => (s, m :: cache.erase m, some m)
  | none =>
    match methodWalk s (s.part pid) key with
    | none => (s, cache, none)
    | some (m, pa) =>
      let s := s.visitRead (s.part pid) pa
      if wellFormed s (s.part pid) m then
        let r := codeLine cl pid m s
        (r.1, (r.2 :: cache).take 512, some r.2)
      else (s, cache, none)

/-! The conversion pool (R347). -/

/-- CONVPOOL can be used. -/
def poolOk (s : State) (p : Partition) : Bool :=
  let c := p.convpool
  c.tag && decide (c.otype = 0) && (staleRecord s p c).isNone && c.has 0 && c.has 1 && c.has 2 && c.has 3
    && decide (c.kind = fmtCAP * 64) && decide (c.rank = 1)

/-- Slot `j` of a pool under checks 6 to 11. -/
def poolSlot (s : State) (pid : Nat) (pool : Cap) (j : Nat) (use : Use) : Except Fail Elem :=
  placeElem s (some pid) pool 0 (engAcc use 64) [Int.ofNat j]

/-- The lowest slot that qualifies for `need` bytes: the slot, its granule and its region. -/
def poolFind (cl pid : Nat) (p : Partition) (need n j : Nat) (s : State) : Option (State × Nat × Elem × Cap) :=
  match n with
  | 0 => none
  | k + 1 =>
    match poolSlot s pid p.convpool j useRead, poolSlot s pid p.convpool j useWrite with
    | .ok e, .ok _ =>
      let s := s.visitRead p e.pa
      let r := s.loadCap e.pa
      if r.tag && codeShape r && decide (need ≤ r.extent 0) then some (s, j, e, r)
      else poolFind cl pid p need k (j + 1) s
    | .error f, _ => poolFind cl pid p need k (j + 1) (s.walkedTo (.cluster cl) f.info.walk)
    | _, .error f => poolFind cl pid p need k (j + 1) (s.walkedTo (.cluster cl) f.info.walk)

/-- Dense strides of a list of extents. -/
def denseDims (es : List Int) (t : Int) : List (Int × Int) :=
  match es with
  | [] => []
  | e :: rest => (e, t) :: denseDims rest (t * e)

/-- A kind stamped on a capability: no other field changes. -/
def Cap.withKind (c : Cap) (k : Nat) : Cap := ((c.setField 87 6 (k / 64)).setField 93 3 (k / 8)).setField 96 3 k

/-- The buffer made of a region for an operand (R347). -/
def bufferOf (region src : Cap) (ckind : Nat) : Cap :=
  let v := region.view
  ({ v with fmt := ckind / 64, sparse := ckind / 8 % 8, layout := ckind % 8, dims := denseDims (src.view.dims.map (·.1)) 1 } : View).cap

/-- A region taken for an operand: the null capability goes into its slot. -/
def poolTake (cl pid : Nat) (p : Partition) (m conv : Method) (src : Cap) (s : State) : Option (State × Convert) :=
  if poolOk s p = false then none
  else match poolFind cl pid p (elemCount src * esize (m.ckind / 64)) (p.convpool.extent 0) 0 s with
    | none => none
    | some (s, j, e, r) =>
      some ((s.touchLeaf (.cluster cl) pid e.va e.leaf true).storeCap e.pa Cap.null,
        { method := conv, src := src, buf := bufferOf r src m.ckind, xs := [], pool := p.convpool, slot := j, region := r,
          started := false, finished := false })

/-- A region goes back into its slot under checks 6 to 11; a write that fails is logged (R347). -/
def poolReturn (cl pid : Nat) (v : Convert) (s : State) : State :=
  let p := s.part pid
  let reachOk := decide (v.region.reach ≠ 0) || v.pool.has 4
  match poolSlot s pid v.pool v.slot { write := true, tagged := v.region.tag, raw := false } with
  | .ok e =>
    if v.region.tag && ((staleRecord s p v.region).isSome || !reachOk) then s.setPart pid { p with errlog := p.errlog + 1 }
    else (s.touchLeaf (.cluster cl) pid e.va e.leaf true).storeCap e.pa v.region
  | .error f => (s.walkedTo (.cluster cl) f.info.walk).setPart pid { p with errlog := p.errlog + 1 }

/-! Resolution (R346, R351). -/

/-- What a launch resolves to: the final method, its operands with buffers in place, the conversions. -/
structure Resolved where
  method : Method
  ops : List Cap
  converts : List Convert
  deriving DecidableEq, Repr

/-- The resolution of a key with its conversions: the method cache as it leaves it, and the cause and key of a failure or what it
found. `pool` is false for a launch of no tasks (R350). A method whose CIDX names an operand beyond the launch's count converts the null
operand, of kind 0, as any other: R346 does not speak of it (DESIGN CHOICE, log 96). -/
def resolve (cl pid : Nat) (pool : Bool) (op fuel : Nat) (kinds : List Nat) (ops : List Cap) (done : List Nat) (converts : List Convert)
    (s : State) (cache : List Method) : List Method × Except (Cause × Word) (State × Resolved) :=
  let p := s.part pid
  let key := keyOf kinds op
  let fail (c : Cause) (k : Nat) : Except (Cause × Word) (State × Resolved) := .error (c, BitVec.ofNat 64 k)
  match fuel with
  | 0 => (cache, fail .nomethod key)
  | f + 1 =>
    let r := lookup cl pid key s cache
    match r.2.2 with
    | none => (r.2.1, fail .nomethod key)
    | some m =>
      if m.conv = false then (r.2.1, .ok (r.1, { method := m, ops := ops, converts := converts }))
      else if done.contains m.cidx then (r.2.1, fail .nomethod key)
      else
        let ckey := keyOf [kinds.getD m.cidx 0, m.ckind] m.cop
        let q := lookup cl pid ckey r.1 r.2.1
        match q.2.2 with
        | none => (q.2.1, fail .nomethod ckey)
        | some c =>
          if c.conv then (q.2.1, fail .nomethod ckey)
          else
            let kinds' := kinds.set m.cidx m.ckind
            if pool then
              match poolTake cl pid p m c (ops.getD m.cidx Cap.null) q.1 with
              | none => (q.2.1, fail .convpool key)
              | some (s', v) =>
                resolve cl pid pool op f kinds' (ops.set m.cidx v.buf) (m.cidx :: done) (converts ++ [v]) s' q.2.1
            else resolve cl pid pool op f kinds' ops (m.cidx :: done) converts q.1 q.2.1

/-- The operand is tagged and unsealed, and so is stamped (R349). -/
def stampable (c : Cap) : Bool := c.tag && decide (c.otype = 0)

/-- The outputs of a method stamped on its operands. -/
def stampAll (m : Method) (ops : List Cap) : List Cap :=
  ops.zipIdx.map fun e => if decide (e.2 < 4) && bitOf m.outm e.2 && stampable e.1 then e.1.withKind (m.outk.getD e.2 0) else e.1

/-! Launch records (R351). -/

/-- The record of a slot. -/
def State.launchAt (s : State) (cl slot : Nat) : Option Launch := sget none (s.cluster cl).launches slot

/-- A record replaced. -/
def State.setLaunch (s : State) (cl slot : Nat) (l : Option Launch) : State :=
  s.setCluster cl { s.cluster cl with launches := sset none (s.cluster cl).launches slot l }

/-- The free slots of a cluster. -/
def freeSlots (s : State) (cl : Nat) : List Nat := (List.range 32).filter fun k => (s.launchAt cl k).isNone

/-- Tasks of a launch. -/
def Launch.total (l : Launch) : Nat := l.d0 * l.d1 * l.d2

/-- A launch leaves the order of every cluster of its die. -/
def State.unorder (s : State) (cl slot : Nat) : State :=
  (List.range 16).foldl (fun s k =>
    let t := cl / 16 * 16 + k
    if (s.cluster t).order.contains (cl, slot) then s.setCluster t { s.cluster t with order := (s.cluster t).order.erase (cl, slot) }
    else s) s

/-- A record freed. -/
def State.freeRecord (s : State) (cl slot : Nat) : State := (s.setLaunch cl slot none).unorder cl slot

/-! Host results (R356). -/

/-- A host address of 8 bytes of the partition: its physical address; a translation fault is none. -/
def hostWord (s : State) (pid va : Nat) (use : Use) : Option (Leaf × Nat) :=
  match translate s (some pid) va use with
  | .ok r => if va % 8 = 0 then some r else none
  | .error _ => none

/-- MSI-X vector 0 at a host launch completion (R466). -/
def State.hostIrq (s : State) (pid : Nat) : State :=
  if bitOf (s.part pid).mbctl.toNat 1 then { s with outbox := s.outbox ++ [Reply.msix pid 0] } else s

/-- A completion word written. One to the peer card is posted (R461). -/
def State.putCword (s : State) (pid pa : Nat) (v : Word) : State :=
  let k := 4096 + pid
  let u := s.store pa 8 v.toNat
  (if s.isPeer pa then { u with unacked := sset 0 u.unacked k (sget 0 u.unacked k + 1) } else u).hostIrq pid

/-- The oldest completion word that waits is written once every posted packet of the partition is acknowledged: it is a release at FABRIC
(R356, R461). -/
def cwordTick (pid : Nat) (s : State) : State :=
  match (s.part pid).cwords with
  | [] => s
  | w :: rest =>
    if s.posted (some pid) then s else (s.setPart pid { s.part pid with cwords := rest }).putCword pid w.1 w.2

/-- VALUE, then RESULT with DONE, then the completion word; a completion word that cannot be written is reported as CAUSE 0x10. -/
def State.hostResult (s : State) (pid record cause : Nat) (value : Word) (cwAddr : Nat) (cwVal : Word) : State :=
  let put (s : State) (cause : Nat) (value : Word) : State :=
    (s.store (record + 112) 8 value.toNat).store (record + 104) 8 (2 ^ 63 + cause)
  if cwAddr = 0 then (put s cause value).hostIrq pid
  else match hostWord s pid cwAddr useWrite with
    | none => ((put s 0x10 (BitVec.ofNat 64 cwAddr)).walkFor .walker (some pid) cwAddr useWrite).hostIrq pid
    | some (l, pa) =>
      let s := (put s cause value).touchLeaf .walker pid cwAddr l true
      cwordTick pid (s.setPart pid { s.part pid with cwords := (s.part pid).cwords ++ [(pa, cwVal)] })

/-! Completion (R353, R354). -/

/-- A TWAIT as the issue logic sees it, without its effect. -/
def bodyTwaitOf (a : RArgs) : Body := { reads := [rx a.rs1], writes := [rx a.rd], sc := a.sc, eff := fun _ s => .ok s }

/-- The strand waits with TWAIT on a record; its fields. -/
def Strand.waitsLaunch (t : Strand) (cl slot gen : Nat) : Option RArgs :=
  match t.wait with
  | .launch c k g a => if t.status = .parked ∧ c = cl ∧ k = slot ∧ g = gen then some a else none
  | _ => none

/-- A parked TWAIT completes with the status word; an acquire at DIE. -/
def State.giveStatus (s : State) (n cl slot gen : Nat) (v : Word) : State :=
  match (s.strand n).waitsLaunch cl slot gen with
  | some a => s.lateWrite n (bodyTwaitOf a) fun s =>
      (s.completed n ((((s.strand n).begin (bodyTwaitOf a)).setX a.rd v).goOn s.cycle a.sc)).l1Acquire (coreOf n)
  | none => s

/-- The status word of a launch. -/
def Launch.statusWord (l : Launch) : Word :=
  match l.status with
  | some e => e.2
  | none => 0

/-- A launch completes: regions return to their slots, a host record gets its result, a detached record is freed, and every parked
TWAIT takes the status word and frees it. -/
def State.completeLaunch (s : State) (cl slot : Nat) (l : Launch) : State :=
  let pid := (s.pidOfCluster cl).getD 0
  let s := l.converts.foldl (fun s v => poolReturn cl pid v s) s
  let s := s.unorder cl slot
  match l.source with
  | .host p rec_ ca cv => (s.hostResult p rec_ 0 l.statusWord ca cv).freeRecord cl slot
  | .task _ =>
    if l.detach then s.freeRecord cl slot
    else
      let who := (s.strands.filter fun e => (e.2.waitsLaunch cl slot l.gen).isSome).map (·.1)
      if who = [] then s.setLaunch cl slot (some { l with complete := true })
      else (who.foldl (fun s n => s.giveStatus n cl slot l.gen l.statusWord) s).freeRecord cl slot

/-- A task of a launch has passed TEND (R353); conversion tasks are numbered from 2^48 and contribute no status. -/
def State.taskEnded (s : State) (id : TaskId) (x10 : Word) : State :=
  match s.launchAt id.cluster id.slot with
  | none => s
  | some l =>
    if l.gen ≠ id.gen ∨ l.complete = true then s
    else if 2 ^ 48 ≤ id.flat then
      let j := id.flat - 2 ^ 48
      s.setLaunch id.cluster id.slot (some { l with
        converts := l.converts.zipIdx.map fun e => if e.2 = j then { e.1 with finished := true } else e.1 })
    else
      let better := match l.status with
        | some e => decide (id.flat < e.1)
        | none => true
      let l := { l with doneN := l.doneN + 1, status := if decide (x10 ≠ 0) && better then some (id.flat, x10) else l.status }
      if l.doneN = l.total then s.completeLaunch id.cluster id.slot l else s.setLaunch id.cluster id.slot (some l)

/-! Acceptance (R350, R351). -/

/-- Control word fields (Table 14.5). -/
def ctlMask (w : Word) : Nat := w.toNat / 2 ^ 16 % 2 ^ 16
/-- NOPS. -/
def ctlOps (w : Word) : Nat := w.toNat % 16
/-- DETACH. -/
def ctlDetach (w : Word) : Bool := w.getLsbD 4
/-- RSV fields zero and NOPS at most 8. -/
def ctlOk (w : Word) : Bool := decide (w.toNat / 2 ^ 32 = 0) && decide (w.toNat / 2 ^ 5 % 2 ^ 11 = 0) && decide (ctlOps w ≤ 8)

/-- The clusters a mask names on a die, `home` when it is 0; none when one lies outside the partition. -/
def targets (s : State) (pid home mask : Nat) : Option (List Nat) :=
  let cs := if mask = 0 then [home] else ((List.range 16).filter (bitOf mask)).map fun k => home / 16 * 16 + k
  if cs.all fun c => decide (s.pidOfCluster c = some pid) then some cs else none

/-- A launch takes a record: which free one is the hardware's choice (log 4). A launch of no tasks completes at once. -/
def State.acceptLaunch (s : State) (cl : Nat) (l : Launch) : State × Nat :=
  let free := freeSlots s cl
  let slot := free.getD (Config.freeChoice s.freeCtr (free.length - 1) % max 1 free.length) 0
  let c := s.cluster cl
  let gen := sget 0 c.gens slot
  let l := { l with gen := gen }
  let s : State := { s with freeCtr := s.freeCtr + 1 }
  let s := s.setCluster cl { c with gens := sset 0 c.gens slot ((gen + 1) % 2 ^ 16), launches := sset none c.launches slot (some l) }
  if l.total = 0 then (s.completeLaunch cl slot l, slot)
  else (l.queues.foldl (fun s q => s.setCluster q.1 { s.cluster q.1 with order := (s.cluster q.1).order ++ [(cl, slot)] }) s, slot)

/-- The kinds of c1 to c4 within an operand count (R343). -/
def kindsOf (ops : List Cap) (n : Nat) : List Nat := (List.range 4).map fun j => if j < n then (ops.getD j Cap.null).kind else 0

/-- The x registers a method copies. -/
def Method.regs (m : Method) : List RegRef := if m.re then regRange .x m.rlo m.rhi else []

/-- The strand that the dispatcher started for a strand's task (R240). -/
def taskHead (s : State) : Nat := if s.me.child then coreOf s.cur * 16 else s.cur

/-- A record to be, with everything but its GEN. -/
def launchOf (source : Launcher) (detach : Bool) (r : Resolved) (c31 : Cap) (regs : Method → List Word) (dims : Word)
    (cs : List Nat) : Launch :=
  { gen := 0, source := source, detach := detach, method := r.method, ops := stampAll r.method r.ops, c31 := c31,
    xs := regs r.method, d0 := dims.toNat % 2 ^ 16, d1 := dims.toNat / 2 ^ 16 % 2 ^ 16, d2 := dims.toNat / 2 ^ 32 % 2 ^ 16,
    queues := cs.zipIdx, converts := r.converts.map fun v => { v with xs := regs v.method }, doneN := 0, status := none,
    complete := false }

/-- The index space of an operator word has no task. -/
def noTasks (dims : Word) : Bool :=
  decide (dims.toNat % 2 ^ 16 * (dims.toNat / 2 ^ 16 % 2 ^ 16) * (dims.toNat / 2 ^ 32 % 2 ^ 16) = 0)

/-- The resolution that a TLAUNCH or a host record asks for. -/
def resolveLaunch (s : State) (pid cl : Nat) (dims : Word) (ops : List Cap) (n : Nat) :
    List Method × Except (Cause × Word) (State × Resolved) :=
  let ops := (List.range 8).map fun j => if j < n then ops.getD j Cap.null else Cap.null
  resolve cl pid (!(noTasks dims)) (dims.toNat / 2 ^ 48) 5 (kindsOf ops n) ops [] [] s (s.cluster cl).mcache

/-! TLAUNCH. -/

/-- The launcher's outputs stamped in its registers (R349). -/
def stampRegs (m : Method) (n : Nat) (s : State) : State :=
  ((List.range 4).filter fun j => decide (j < n) && bitOf m.outm j && stampable (s.me.readC (j + 1))).foldl (fun s j =>
    s.setMe ((s.me.noteWrite (rc (j + 1))).setC (j + 1) ((s.me.readC (j + 1)).withKind (m.outk.getD j 0)))) s

/-- The operand registers of a launch, c31 the last. -/
def launchRegs (n : Nat) : List RegRef := ((List.range n).map fun j => rc (j + 1)) ++ [rc 31]

/-- TLAUNCH's control word and record: the target clusters (R350, R351). -/
def launchTargets (a : RArgs) (s : State) : Except Stop (List Nat) := do
  let w := s.me.readX a.rs2
  let cl := clusterOf s.cur
  match targets s s.myPid cl (ctlMask w) with
  | none => fault .illegal (BitVec.ofNat 64 (encR 0x3C 10 a)) 0
  | some cs =>
    need (ctlOk w) .illegal (BitVec.ofNat 64 (encR 0x3C 10 a)) 0
    if freeSlots s cl = [] then .error (.park .retry) else .ok cs

/-- The operand registers of a TLAUNCH visited (R442). -/
def launchVisit (a : RArgs) (s : State) : State := (launchRegs (ctlOps (s.me.readX a.rs2))).foldl (fun s r => s.visitReg r.num) s

/-- The resolution of a TLAUNCH whose operands are read. -/
def launchResolve (a : RArgs) (s : State) : List Method × Except (Cause × Word) (State × Resolved) :=
  let n := ctlOps (s.me.readX a.rs2)
  resolveLaunch s s.myPid (clusterOf s.cur) (s.me.readX a.rs1) ((List.range n).map fun j => s.me.readC (j + 1)) n

/-- The x registers that the methods of a resolution copy. -/
def Resolved.regs (r : Resolved) : List RegRef := r.method.regs ++ r.converts.flatMap fun v => v.method.regs

/-- The operands among c1 to c4 that a resolution stamps. -/
def Resolved.outs (r : Resolved) (w : Word) : List Nat :=
  (List.range 4).filter fun j => decide (j < ctlOps w) && bitOf r.method.outm j

/-- TLAUNCH's checks and its reads (R351): its operand registers, then, where it resolves, what its methods copy. It is held while a write of
an operand that it stamps is pending, and rebuilds what that write would untie. -/
def launchReads (a : RArgs) (s : State) : Except Stop State := do
  let w := s.me.readX a.rs2
  let _ ← launchTargets a s
  let s ← readThem (launchRegs (ctlOps w)) s
  match (launchResolve a (launchVisit a s)).2 with
  | .error _ => .ok s
  | .ok (_, res) =>
    let s ← readThem res.regs s
    if (res.outs w).any fun j => s.me.pendingAfter (rc (j + 1)) s.cycle then .error .hold
    else rebuildAll ((res.outs w).flatMap fun j => s.me.droppedBy (rc (j + 1))) s

/-- TLAUNCH (R351), every register that it reads being read. -/
def effTlaunch (a : RArgs) (s : State) : Except Stop State := do
  let w := s.me.readX a.rs2
  let dims := s.me.readX a.rs1
  let cs ← launchTargets a s
  let s := launchVisit a s
  let cl := clusterOf s.cur
  let r := launchResolve a s
  match r.2 with
  | .error (c, k) => fault c k 0
  | .ok (s, res) =>
    let regs (m : Method) : List Word := m.regs.map fun g => s.me.readX g.num
    let l := launchOf (.task (taskHead s)) (ctlDetach w) res (s.me.readC 31) regs dims cs
    let s := s.setCluster cl { s.cluster cl with mcache := r.1 }
    let s := (stampRegs res.method (ctlOps w) s).l1Release (coreOf s.cur) s.myPid
    let q := s.acceptLaunch cl l
    .ok (q.1.putX 0 a.rd (BitVec.ofNat 64 (sget 0 (s.cluster cl).gens q.2 * 2 ^ 8 + q.2)))

/-- TLAUNCH as the issue logic sees it. -/
def bodyTlaunch (a : RArgs) : Body :=
  { reads := [rx a.rs1, rx a.rs2], sync := if a.sr then some (rx a.rs1) else none, writes := [rx a.rd], sc := a.sc,
    late := launchReads a, eff := fun _ => effTlaunch a }

/-- The keys that a failed TLAUNCH found stay in the method cache (R345). -/
def keepKeys (a : RArgs) (s : State) : State :=
  match launchTargets a s with
  | .ok _ => s.setCluster (clusterOf s.cur) { s.cluster (clusterOf s.cur) with mcache := (launchResolve a (launchVisit a s)).1 }
  | .error _ => s

/-! TWAIT. -/

/-- TWAIT (R354). -/
def effTwait (a : RArgs) (s : State) : Except Stop State :=
  let h := (s.me.readX a.rs1).toNat
  let cl := clusterOf s.cur
  let bad : Except Stop State := fault .illegal (BitVec.ofNat 64 (encR 0x3C 11 a)) 0
  if h / 2 ^ 24 ≠ 0 ∨ h / 2 ^ 5 % 8 ≠ 0 then bad
  else match s.launchAt cl (h % 32) with
    | none => bad
    | some l =>
      if l.source ≠ .task (taskHead s) ∨ l.detach = true ∨ l.gen ≠ h / 2 ^ 8 then bad
      else if l.complete then .ok (((s.freeRecord cl (h % 32)).l1Acquire (coreOf s.cur)).putX 0 a.rd l.statusWord)
      else .error (.park (.launch cl (h % 32) l.gen a))

/-- TWAIT as the issue logic sees it. -/
def bodyTwait (a : RArgs) : Body := { bodyTwaitOf a with eff := fun _ => effTwait a }

/-! Starting tasks (R52, R352). -/

/-- What a task starts with: its entry, x and c registers, and its number. -/
structure TaskStart where
  entry : Cap
  xs : List (Nat × Word)
  cs : List Cap
  c31 : Cap
  id : TaskId
  deriving DecidableEq, Repr

/-- The registers x[RLO] on. -/
def regPairs (m : Method) (xs : List Word) : List (Nat × Word) := xs.zipIdx.map fun e => (m.rlo + e.2, e.1)

/-- The task of flat index `f`. -/
def Launch.task (l : Launch) (cl slot f : Nat) : TaskStart :=
  { entry := l.method.entry.unsealed,
    xs := regPairs l.method l.xs ++ [(10, BitVec.ofNat 64 (f % l.d0)), (11, BitVec.ofNat 64 (f / l.d0 % l.d1)),
      (12, BitVec.ofNat 64 (f / (l.d0 * l.d1))), (13, BitVec.ofNat 64 f)],
    cs := l.ops, c31 := l.c31, id := { cluster := cl, slot := slot, gen := l.gen, flat := f } }

/-- The task of conversion `j` (R346). -/
def Launch.convertTask (l : Launch) (cl slot j : Nat) (v : Convert) : TaskStart :=
  { entry := v.method.entry.unsealed, xs := regPairs v.method v.xs, cs := stampAll v.method [v.src, v.buf], c31 := l.c31,
    id := { cluster := cl, slot := slot, gen := l.gen, flat := 2 ^ 48 + j } }

/-- The next task that a launch has for a cluster, with the record after its start. Conversions go to the launch's first cluster, and
the tasks wait for all of them (R348). -/
def Launch.nextTask (l : Launch) (cl slot target : Nat) : Option (TaskStart × Launch) :=
  match l.converts.zipIdx.find? fun e => !e.1.started with
  | some (v, j) =>
    if (l.queues.map (·.1)).head? = some target then
      some (l.convertTask cl slot j v,
        { l with converts := l.converts.zipIdx.map fun e => if e.2 = j then { e.1 with started := true } else e.1 })
    else none
  | none =>
    if l.converts.all fun v => v.finished then
      match l.queues.find? fun q => decide (q.1 = target) with
      | some (_, f) =>
        if f < l.total then
          some (l.task cl slot f,
            { l with queues := l.queues.map fun q => if q.1 = target then (q.1, q.2 + l.queues.length) else q })
        else none
      | none => none
    else none

/-- A launch has tasks left that a cluster is to start. -/
def Launch.hasMore (l : Launch) (target : Nat) : Bool := l.queues.any fun q => decide (q.1 = target) && decide (q.2 < l.total)

/-- The launch a cluster serves: the first in the order of acceptance that has tasks left for it, and the task that it starts next. It
starts none of a later launch while that one waits for its conversions (R352). -/
def serving (s : State) (target : Nat) : Option ((Nat × Nat) × TaskStart × Launch × Nat) :=
  match (s.cluster target).order.find? fun o => match s.launchAt o.1 o.2 with
    | none => false
    | some l => l.hasMore target with
  | none => none
  | some o =>
    match s.launchAt o.1 o.2 with
    | none => none
    | some l => (l.nextTask o.1 o.2 target).map fun r =>
        (o, r.1, r.2, if 2 ^ 48 ≤ r.1.id.flat then 16 else l.method.scnt)

/-- Running tasks of a launch on a core: those of a conversion are a launch of their own. -/
def tasksOn (s : State) (core : Nat) (id : TaskId) : Nat :=
  ((List.range 16).filter fun k =>
    let t := s.strand (16 * core + k)
    decide (t.status ≠ .free) && !t.child && match t.task with
      | some i => decide (i.cluster = id.cluster) && decide (i.slot = id.slot) && decide (i.gen = id.gen) && decide (i.flat < 2 ^ 48)
      | none => false).length

/-- A context in which the dispatcher may start a task of a launch (R235, R352, R440). -/
def startable (s : State) (pid target : Nat) (id : TaskId) (scnt n : Nat) : Bool :=
  decide (clusterOf n = target) && !(s.offline (coreOf n)) && (s.core (coreOf n)).admitMask.getLsbD (n % 16)
    && decide ((s.strand n).status = .free) && (decide (2 ^ 48 ≤ id.flat) || decide (tasksOn s (coreOf n) id < scnt))
    && frameReady s pid n

/-- Table 1.13 in a context, with the frame root of R440. -/
def State.startTask (s : State) (pid n : Nat) (k : TaskStart) : State :=
  let f := s.startFrame pid n
  let s := f.1
  let t := (s.strand n).start k.entry s.cycle
  let t := k.xs.foldl (fun t e => t.setX e.1 e.2) t
  let t := k.cs.zipIdx.foldl (fun t e => t.setC (e.2 + 1) e.1) t
  let t := (t.setC 30 f.2).setC 31 k.c31
  ((s.setStrand n { t with task := some k.id }).unmarkLinks n).l1Acquire (coreOf n)

/-- TASK_START: the dispatcher starts the next task of the launch that a cluster serves in a context. -/
def taskStart (target n : Nat) (s : State) : State :=
  match s.pidOfCluster target, serving s target with
  | some pid, some (o, k, l, scnt) =>
    if (s.part pid).run = .running ∧ startable s pid target k.id scnt n = true then
      (s.setLaunch o.1 o.2 (some l)).startTask pid n k
    else s
  | _, _ => s

/-- The dispatcher's turn: which context takes the task is its choice (log 4). -/
def taskTick (target : Nat) (s : State) : State :=
  match s.pidOfCluster target, serving s target with
  | some pid, some (_, k, _, scnt) =>
    let ns := ((List.range 128).map fun i => 128 * target + i).filter (startable s pid target k.id scnt)
    if ns = [] then s
    else taskStart target (ns.getD (Config.freeChoice s.freeCtr (ns.length - 1) % ns.length) 0) { s with freeCtr := s.freeCtr + 1 }
  | _, _ => s

/-! Host launches (R356, R466, R467). -/

/-- Capability `j` of an argument block: its granule and value, none where its address is not mapped. -/
def argGranule (s : State) (pid blk j : Nat) (use : Use) : Option (Leaf × Nat) :=
  let va := blk + 64 * j
  match translate s (some pid) va use with
  | .ok r => if va % 64 = 0 then some r else none
  | .error _ => none

/-- The first granule of a list that cannot be reached. -/
def badGranule (s : State) (pid blk : Nat) (use : Use) (js : List Nat) : Option Nat :=
  js.find? fun j => (argGranule s pid blk j use).isNone

/-- The capability in granule `j`. -/
def argCap (s : State) (pid blk j : Nat) : Cap :=
  match argGranule s pid blk j useRead with
  | some (_, pa) => s.loadCap pa
  | none => Cap.null

/-- The granules of an argument block read by a cluster's dispatcher: their pages and lines, and a visit during a sweep (R442). -/
def readBlock (cl pid blk : Nat) (s : State) : State :=
  (List.range 9).foldl (fun s j =>
    match argGranule s pid blk j useRead with
    | some (l, pa) =>
      (((s.touchLeaf (.cluster cl) pid (blk + 64 * j) l false).l2Request pid (some (blk + 64 * j)) pa 0 (bitOf l.entry 5) none).visitRead
        (s.part pid) pa)
    | none => s) s

/-- The stamped outputs written back into the argument block (R349). -/
def stampBlock (cl pid blk n : Nat) (m : Method) (ops : List Cap) (s : State) : State :=
  ((List.range 4).filter fun j => decide (j < n) && bitOf m.outm j && stampable (ops.getD j Cap.null)).foldl (fun s j =>
    match argGranule s pid blk j { write := true, tagged := true, raw := false } with
    | some (l, pa) => (s.touchLeaf (.cluster cl) pid (blk + 64 * j) l true).storeCap pa ((ops.getD j Cap.null).withKind (m.outk.getD j 0))
    | none => s) s

/-- The outputs of a host launch that cannot be stamped where they stand. -/
def badStamp (s : State) (pid blk n : Nat) (m : Method) (ops : List Cap) : Option Nat :=
  badGranule s pid blk { write := true, tagged := true, raw := false }
    ((List.range 4).filter fun j => decide (j < n) && bitOf m.outm j && stampable (ops.getD j Cap.null))

/-- The record at a physical address becomes a launch, or is answered with a cause; none while no launch record is free. -/
def hostLaunch (pid record home : Nat) (homeOk : Bool) (s : State) : Option State :=
  let w (k : Nat) : Word := BitVec.ofNat 64 (s.load (record + 8 * k) 8)
  let answer (s : State) (cause : Nat) (v : Word) : Option State := some (s.hostResult pid record cause v (w 3).toNat (w 4))
  let ctl := w 1
  let n := ctlOps ctl
  let blk := (w 2).toNat
  match targets s pid home (ctlMask ctl) with
  | none => answer s 0x01 0
  | some cs =>
    if homeOk = false ∨ w 15 ≠ 0 ∨ (w 13).toNat / 2 ^ 8 % 2 ^ 55 ≠ 0 ∨ ctlOk ctl = false then answer s 0x01 0
    else if freeSlots s home = [] then none
    else match badGranule s pid blk useRead (List.range 9) with
      | some j => answer (s.walkFor (.cluster home) (some pid) (blk + 64 * j) useRead) 0x10 (BitVec.ofNat 64 (blk + 64 * j))
      | none =>
        if (w 3 ≠ 0 ∧ (hostWord s pid (w 3).toNat useWrite).isNone) then answer s 0x10 (w 3)
        else
          let s := readBlock home pid blk s
          let ops := (List.range 8).map fun j => argCap s pid blk j
          let r := resolveLaunch s pid home (w 0) ops n
          let keep (s : State) : State := s.setCluster home { s.cluster home with mcache := r.1 }
          match r.2 with
          | .error (c, k) => answer (keep s) c.code.toNat k
          | .ok (s', res) =>
            match badStamp s pid blk n res.method ops with
            | some j =>
              let use : Use := { write := true, tagged := true, raw := false }
              answer ((keep s).walkFor (.cluster home) (some pid) (blk + 64 * j) use) 0x10 (BitVec.ofNat 64 (blk + 64 * j))
            | none =>
              let regs (m : Method) : List Word :=
                m.regs.zipIdx.map fun e => if e.2 < 8 then w (5 + e.2) else 0
              let l := launchOf (.host pid record (w 3).toNat (w 4)) false res (argCap s pid blk 8) regs (w 0) cs
              some ((stampBlock home pid blk n res.method ops (keep s')).acceptLaunch home l).1

/-- The lowest cluster of a partition on a die. -/
def lowestCluster (s : State) (pid die : Nat) : Option Nat :=
  ((List.range 16).map fun k => 16 * die + k).find? fun c => decide (s.pidOfCluster c = some pid)

/-- MAILBOX_ACCEPT: the next record of the ring. -/
def mailboxAccept (pid : Nat) (s : State) : State :=
  let p := s.part pid
  let c := p.mbctl.toNat
  if bitOf c 0 = false ∨ p.mbhead = p.mbtail ∨ p.run ≠ .running then s
  else
    let record := c % 2 ^ 48 / 2 ^ 12 * 2 ^ 12 + 128 * (p.mbhead.toNat % 2 ^ min 12 (c / 2 ^ 8 % 16))
    let home := lowestCluster s pid (c / 4 % 2)
    match hostLaunch pid record (home.getD 0) home.isSome s with
    | none => s
    | some s' => s'.setPart pid { s'.part pid with mbhead := p.mbhead + 1 }

end Sys2Proof.Machine
end

