-- ==== Sys2Proof/Machine/Attention.lean ====
section
/-! DEFINITION. Page-major attention: subscriptions and layer passes of the KMU (R358 to R370), and the merge buffer (R371 to R376). -/

namespace Sys2Proof.Machine

/-! Shapes (R358, R359, R361). -/

/-- The layout code KVP (Table 1.6). -/
def layoutKVP : Nat := 4

/-- What a KV pool meets at check 5. -/
def poolShape (c : Cap) : Bool :=
  decide (c.rank = 3) && decide (c.fmt = 0x11) && decide (c.sparse = 0) && decide (c.layout = layoutKVP) && decide (1 ≤ c.extent 0)
    && decide (c.extent 0 ≤ 256) && decide (8 ≤ c.extent 1) && decide (c.extent 1 ≤ 64)

/-- Both pools have equal extents. -/
def samePages (k v : Cap) : Bool := (List.range 3).all fun j => decide (k.extent j = v.extent j)

/-- What a page list meets. -/
def listShape (c : Cap) : Bool :=
  decide (c.rank = 1) && decide (c.fmt = 6) && decide (c.sparse = 0) && decide (1 ≤ c.extent 0) && decide (c.extent 0 ≤ 256)

/-- The bytes of a buffer: 4·T·d rounded up to a multiple of 128. -/
def bufBytes (d t : Nat) : Nat := (4 * t * d + 127) / 128 * 128

/-- A bank of the KV region: KVB = 1 and FMT = BF16. -/
def kvBank (k : Core) (b : Nat) : Bool :=
  decide (b < l1First k.nb) && bitOf (k.bfmtOf b).toNat 7 && decide ((k.bfmtOf b).toNat % 64 = 0x11)

/-- The KV region of a core: its first bank and its banks. -/
def kvRegion (k : Core) : Nat × Nat :=
  match (List.range 16).find? (kvBank k) with
  | none => (0, 0)
  | some b => (b, ((List.range (16 - b)).takeWhile fun i => kvBank k (b + i)).length)

/-! Subscriptions. -/

/-- A query slot of a cluster. -/
def State.kvSlot (s : State) (cl n : Nat) : KvSlot := sget KvSlot.reset (s.cluster cl).kv n

/-- A query slot replaced. -/
def State.setKv (s : State) (cl n : Nat) (k : KvSlot) : State :=
  s.setCluster cl { s.cluster cl with kv := sset KvSlot.reset (s.cluster cl).kv n k }

/-- The lowest free query slot. -/
def freeKv (s : State) (cl : Nat) : Option Nat := (List.range 64).find? fun n => decide ((s.kvSlot cl n).state = .free)

/-- Slot `q` taken by a subscription. -/
def State.subscribe (s : State) (cl q : Nat) (r : KvReq) : State :=
  let c := s.cluster cl
  let k : KvSlot := { state := .pending, owner := r.strand, ids := r.ids, obase := r.obase, kpool := r.kpool, vpool := r.vpool,
                      age := c.kvAge, left := r.ids, queue := [], refs := [] }
  s.setCluster cl { c with kv := sset KvSlot.reset c.kv q k, kvAge := c.kvAge + 1 }

/-- The page IDs of a list from position `j` on, with the checks of R361 in order. -/
def readIds (list kp : Cap) (reg n j prev : Nat) (s : State) : Except Stop (State × List Nat) :=
  match n with
  | 0 => .ok (s, [])
  | k + 1 => do
    let e ← one (placeElem s (s.pidOf s.cur) list reg (accOf s useRead 4 false) [Int.ofNat j])
    let v := s.load e.pa 4
    need (!(decide (0 < j) && decide (v ≤ prev))) .kvorder (BitVec.ofNat 64 j) reg
    need (decide (v < kp.extent 2)) .capBound (boundRecord 2 (Int.ofNat v)) (reg + 1)
    let r ← readIds list kp reg k (j + 1) v (s.touch e 4 false)
    .ok (r.1, v :: r.2)

/-- rs1 of KVSUB names three registers. -/
def kvPre (a : RArgs) (_ : State) : Except Stop Unit :=
  need (decide (a.rs1.val ≤ 29)) .illegal (BitVec.ofNat 64 (encR 0x3D 0 a)) 0

/-- KVSUB (R361). -/
def effKvsub (a : RArgs) (s : State) : Except Stop State := do
  let w := (s.me.readX a.rs2).toNat
  let r := a.rs1.val
  let list := s.me.readC r
  need (decide (w < 2 ^ 16) && decide (w + list.extent 0 ≤ 2 ^ 16)) .illegal (BitVec.ofNat 64 (encR 0x3D 0 a)) 0
  check15 s list r permLD (listShape list)
  let kp := s.me.readC (r + 1)
  let vp := s.me.readC (r + 2)
  check15 s kp (r + 1) (permLD ||| permDMA) (poolShape kp)
  check15 s vp (r + 2) (permLD ||| permDMA) (poolShape vp && samePages kp vp)
  let need4 := 4 * bufBytes (kp.extent 0) (kp.extent 1)
  need (decide (need4 ≤ (kvRegion s.myCore).2 * 2 ^ 16)) .pageAttr (BitVec.ofNat 64 need4) 0
  let d ← readIds list kp r (list.extent 0) 0 0 s
  let s := (d.1.visitReg (r + 1)).visitReg (r + 2)
  let cl := clusterOf s.cur
  let q : KvReq := { strand := s.cur, args := a, ids := d.2, obase := w, kpool := s.me.readC (r + 1), vpool := s.me.readC (r + 2) }
  match freeKv s cl with
  | some n => .ok ((s.subscribe cl n q).putX 0 a.rd (BitVec.ofNat 64 n))
  | none =>
    let c := s.cluster cl
    .ok ((s.setCluster cl { c with kvWait := c.kvWait ++ [q] }).setMe (s.me.parked .request))

/-- KVSUB as the issue logic sees it. -/
def bodyKvsub (a : RArgs) : Body :=
  { reads := [rc a.rs1, rc (a.rs1.val + 1), rc (a.rs1.val + 2), rx a.rs2], sync := if a.sr then some (rc a.rs1) else none,
    writes := [rx a.rd], sc := a.sc, pre := kvPre a, eff := fun _ => effKvsub a }

/-- Waiting KVSUBs take free slots, the oldest first. -/
def serveKv (cl fuel : Nat) (s : State) : State :=
  match fuel with
  | 0 => s
  | f + 1 =>
    let c := s.cluster cl
    match c.kvWait, freeKv s cl with
    | r :: rest, some n =>
      serveKv cl f ((s.setCluster cl { c with kvWait := rest }).lateWrite r.strand (bodyKvsub r.args) fun s =>
        let s := s.subscribe cl n r
        let t := (s.strand r.strand).begin (bodyKvsub r.args)
        s.completed r.strand ((t.setX r.args.rd (BitVec.ofNat 64 n)).goOn s.cycle r.args.sc))
    | _, _ => s

/-- A slot freed with its undelivered pages, deliveries and references (R370). -/
def State.unsubscribe (s : State) (cl n : Nat) : State :=
  serveKv cl ((s.cluster cl).kvWait.length + 1) (s.setKv cl n KvSlot.reset)

/-- The slots of a cluster that a strand owns. -/
def ownKv (s : State) (cl n : Nat) : List Nat :=
  (List.range 64).filter fun q => decide ((s.kvSlot cl q).state ≠ .free) && decide ((s.kvSlot cl q).owner = n)

/-- KVUNSUB (R370). -/
def effKvunsub (a : RArgs) (s : State) : Except Stop State := do
  let x := (s.me.readX a.rs1).toNat
  let cl := clusterOf s.cur
  need (decide (x < 64) && (ownKv s cl s.cur).contains x) .illegal (BitVec.ofNat 64 (encR 0x3D 1 a)) 0
  .ok (s.unsubscribe cl x)

/-! Layer passes (R363 to R366). -/

/-- The slots of the running pass. -/
def activeKv (s : State) (cl : Nat) : List Nat := (List.range 64).filter fun q => decide ((s.kvSlot cl q).state = .active)

/-- The least of a list of numbers. -/
def leastOf (l : List Nat) : Option Nat := l.foldl (fun m x => some (match m with | none => x | some y => min x y)) none

/-- KMU_PASS_START: the oldest Pending slot, with every Pending slot of the same pools. -/
def kmuStart (cl : Nat) (s : State) : State :=
  if (s.cluster cl).pass.isSome then s
  else
    let pend := (List.range 64).filter fun q => decide ((s.kvSlot cl q).state = .pending)
    match leastOf (pend.map fun q => (s.kvSlot cl q).age) with
    | none => s
    | some age =>
      match pend.find? fun q => decide ((s.kvSlot cl q).age = age) with
      | none => s
      | some q0 =>
        let k := s.kvSlot cl q0
        let s := (pend.filter fun q => decide ((s.kvSlot cl q).kpool = k.kpool) && decide ((s.kvSlot cl q).vpool = k.vpool)).foldl
          (fun s q => s.setKv cl q { s.kvSlot cl q with state := .active }) s
        s.setCluster cl { s.cluster cl with pass := some { page := none, fetched := none, cause := 0, cores := [] } }

/-- The active slots on a core that still list a page. -/
def kvTargets (s : State) (cl core page : Nat) : List Nat :=
  (activeKv s cl).filter fun q => decide (coreOf (s.kvSlot cl q).owner = core) && (s.kvSlot cl q).left.contains page

/-- A page's elements read in traversal order as an engine reads (R365): the bytes, or the cause of the first failing check and the walk that
came to it. -/
def fetchElems (cl : Nat) (c : Cap) (idx : List (List Int)) (s : State) : Except (Nat × Option Walk) (State × List Byte) :=
  match idx with
  | [] => .ok (s, [])
  | i :: rest =>
    match engElem s (8 * cl) c 0 useRead i with
    | .error f => .error (f.info.cause.code.toNat, f.info.walk)
    | .ok e =>
      match fetchElems cl c rest (s.homeTouch (.cluster cl) ((s.pidOfCluster cl).getD 0) e 2 false) with
      | .error n => .error n
      | .ok r => .ok (r.1, s.byte e.pa :: s.byte (e.pa + 1) :: r.2)

/-- One page of a pool: checks 1 to 5, then its elements. -/
def fetchPage (cl : Nat) (c : Cap) (page : Nat) (s : State) : Except (Nat × Option Walk) (State × List Byte) :=
  let p := match s.pidOfCluster cl with
    | some n => s.part n
    | none => Partition.reset
  let ok : Except Stop Unit := do
    checkTagSeal c 0
    checkGen s p c 0
    checkPerm c (permLD ||| permDMA) 0
    checkFmt c (poolShape c) 0
  match ok with
  | .error (.trap t) => .error (t.cause.code.toNat, none)
  | .error _ => .error (Cause.pageAttr.code.toNat, none)
  | .ok _ => fetchElems cl c ((tileIdx (c.extent 0) (c.extent 1)).map fun i => i ++ [Int.ofNat page]) s

/-- The K and V pages of a page. -/
def fetchBoth (cl : Nat) (k v : Cap) (page : Nat) (s : State) : Except (Nat × Option Walk) (State × List Byte) :=
  match fetchPage cl k page s with
  | .error n => .error n
  | .ok a =>
    match fetchPage cl v page a.1 with
    | .error n => .error n
    | .ok b => .ok (b.1, a.2 ++ b.2)

/-- KMU_PAGE_FETCH: the next page of the pass is fetched once; a pass that has none left ends (R363, R364). -/
def kmuFetch (cl : Nat) (s : State) : State :=
  match (s.cluster cl).pass with
  | none => s
  | some ps =>
    if ps.page.isSome || s.seamHolds (s.pidOfCluster cl) then s
    else
      let act := activeKv s cl
      match leastOf (act.flatMap fun q => (s.kvSlot cl q).left), act with
      | some page, q0 :: _ =>
        let k := s.kvSlot cl q0
        let cores := ((List.range 8).map fun i => 8 * cl + i).filter fun c => !(kvTargets s cl c page).isEmpty
        match fetchBoth cl k.kpool k.vpool page s with
        | .ok r => r.1.setCluster cl { r.1.cluster cl with pass := some { page := some page, fetched := some r.2, cause := 0, cores := cores } }
        | .error (c, walk) =>
          let s := s.walkedTo (.cluster cl) walk
          s.setCluster cl { s.cluster cl with pass := some { page := some page, fetched := none, cause := c, cores := cores } }
      | _, _ => s.setCluster cl { s.cluster cl with pass := none }

/-- Buffer `b` of a core is in use: an unreturned delivery lies in it, or a returned reference holds it (R369). -/
def bufUsed (s : State) (cl core b : Nat) : Bool :=
  (List.range 64).any fun q =>
    let k := s.kvSlot cl q
    decide (k.state ≠ .free) && decide (coreOf k.owner = core)
      && (k.refs.contains b || k.queue.any fun d => decide (d.cause = 0) && decide (d.buf = b))

/-- Bytes stored one after another. -/
def State.storeBytes (s : State) (pa : Nat) (bs : List Byte) : State :=
  match bs with
  | [] => s
  | b :: rest => (s.store pa 1 b.toNat).storeBytes (pa + 1) rest

/-- A page written into buffer `b` of a core's region, or the cause of the first bank check that fails (R365, R366). -/
def writeBuffer (core b : Nat) (k : Cap) (bs : List Byte) (s : State) : Except Nat State :=
  let c := s.core core
  let size := bufBytes (k.extent 0) (k.extent 1)
  let r := kvRegion c
  if r.2 * 2 ^ 16 < 4 * size then .error Cause.pageAttr.code.toNat
  else
    let lo := r.1 * 2 ^ 16 + b * size
    let banks := (List.range 16).filter fun i => decide (lo / 2 ^ 16 ≤ i) && decide (i ≤ (lo + bs.length - 1) / 2 ^ 16)
    match banks.findSome? fun i => match bankCheck s k 0 (engAcc useWrite 2) 0 core i with
      | .error f => some f.info.cause.code.toNat
      | .ok _ => none with
    | some n => .error n
    | none => .ok (s.storeBytes (s.window core + lo) bs)

/-- A delivery recorded in a slot; the last one drains it (Table 15.2). -/
def KvSlot.record (k : KvSlot) (page cause buf age : Nat) : KvSlot :=
  let left := k.left.filter fun p => decide (p ≠ page)
  { k with left := left, state := if left = [] then .drained else k.state,
           queue := k.queue ++ [{ page := page, pos := k.ids.idxOf page, cause := cause, buf := buf, age := age }] }

/-- The deliveries of a page to a core recorded. -/
def recordPage (cl core page cause buf : Nat) (s : State) : State :=
  let age := (s.cluster cl).kvAge
  let s := (kvTargets s cl core page).foldl (fun s q => s.setKv cl q ((s.kvSlot cl q).record page cause buf age)) s
  s.setCluster cl { s.cluster cl with kvAge := age + 1 }

/-- A core is done with the page; after the last one the pass moves on (R364). -/
def pageDone (cl core : Nat) (ps : Pass) (s : State) : State :=
  let cores := ps.cores.filter fun c => decide (c ≠ core)
  s.setCluster cl { s.cluster cl with
    pass := some (if cores = [] then { page := none, fetched := none, cause := 0, cores := [] } else { ps with cores := cores }) }

/-- KMU_PAGE_DELIVER: the page goes into the lowest free buffer of a core; it waits while none is free. -/
def kmuDeliver (cl core : Nat) (s : State) : State :=
  match (s.cluster cl).pass with
  | none => s
  | some ps =>
    match ps.page with
    | none => s
    | some page =>
      if !(ps.cores.contains core) then s
      else match kvTargets s cl core page, ps.fetched with
        | [], _ => pageDone cl core ps s
        | _ :: _, none => pageDone cl core ps (recordPage cl core page ps.cause 0 s)
        | q :: _, some bs =>
          match (List.range 4).find? fun b => !(bufUsed s cl core b) with
          | none => s
          | some b =>
            match writeBuffer core b (s.kvSlot cl q).kpool bs s with
            | .ok s => pageDone cl core ps (recordPage cl core page 0 b s)
            | .error c => pageDone cl core ps (recordPage cl core page c 0 s)

/-- One cycle of the KMU. -/
def kmuTick (cl : Nat) (s : State) : State :=
  match (s.cluster cl).pass with
  | none => kmuStart cl s
  | some ps => if ps.page.isNone then kmuFetch cl s else ps.cores.foldl (fun s c => kmuDeliver cl c s) s

/-- The KMU counts as traffic (R367): it fetches, or delivers to a core that has a free buffer. -/
def kmuBusy (s : State) (cl : Nat) : Bool :=
  match (s.cluster cl).pass with
  | none => (List.range 64).any fun q => decide ((s.kvSlot cl q).state = .pending)
  | some ps => ps.page.isNone || ps.fetched.isNone || ps.cores.any fun c => (List.range 4).any fun b => !(bufUsed s cl c b)

/-! Taking and releasing pages. -/

/-- The oldest delivery of a list of slots, the lowest slot of a tie. -/
def oldest (s : State) (cl : Nat) (qs : List Nat) : Option (Nat × Delivery) :=
  qs.foldl (fun best q =>
    match (s.kvSlot cl q).queue, best with
    | [], b => b
    | d :: _, none => some (q, d)
    | d :: _, some b => if d.age < b.2.age then some (q, d) else some b) none

/-- The delivery word of Table 15.3. -/
def deliveryWord (k : KvSlot) (q : Nat) (d : Delivery) : Word :=
  BitVec.ofNat 64 ((k.obase + d.pos) % 2 ^ 16 * 2 ^ 48 + d.page % 2 ^ 20 * 2 ^ 24 + d.cause * 2 ^ 16 + d.buf * 2 ^ 8 + q)

/-- KVNEXT (R368). -/
def effKvnext (a : RArgs) (s : State) : Except Stop State :=
  let cl := clusterOf s.cur
  let own := ownKv s cl s.cur
  match oldest s cl own with
  | some (q, d) =>
    let k := s.kvSlot cl q
    let k' := { k with queue := k.queue.tail, refs := if d.cause = 0 then k.refs ++ [d.buf] else k.refs }
    .ok ((s.setKv cl q k').putX 0 a.rd (deliveryWord k q d))
  | none =>
    if own.all fun q => decide ((s.kvSlot cl q).state = .drained) then .ok (s.putX 0 a.rd (BitVec.ofNat 64 (2 ^ 15)))
    else .error (.park .retry)

/-- KVREL (R369). -/
def effKvrel (a : RArgs) (s : State) : Except Stop State := do
  let w := (s.me.readX a.rs1).toNat
  let cl := clusterOf s.cur
  let q := w % 64
  let b := w / 2 ^ 8 % 4
  if bitOf w 15 ∨ w / 2 ^ 16 % 2 ^ 8 ≠ 0 then .ok s
  else
    let k := s.kvSlot cl q
    need ((ownKv s cl s.cur).contains q && k.refs.contains b) .illegal (BitVec.ofNat 64 (encR 0x3D 3 a)) 0
    .ok (s.setKv cl q { k with refs := k.refs.erase b })

/-! The merge buffer. -/

/-- A merge slot of a cluster. -/
def State.mergeSlot (s : State) (cl n : Nat) : MergeSlot := sget MergeSlot.reset (s.cluster cl).merge n

/-- A merge slot replaced. -/
def State.setMerge (s : State) (cl n : Nat) (k : MergeSlot) : State :=
  s.setCluster cl { s.cluster cl with merge := sset MergeSlot.reset (s.cluster cl).merge n k }

/-- Bytes of a slot of head dimension `d` (R371). -/
def mergeBytes (d : Nat) : Nat := (160 + 68 * d + 255) / 256 * 256

/-- Bytes of the merge buffer in use. -/
def mergeUsed (c : Cluster) : Nat := c.merge.foldl (fun n e => if e.2.valid then n + mergeBytes e.2.dim else n) 0

/-- What MGALLOC returns when it takes no slot. -/
def mgNone : Word := 0x8000000000000000

/-- MGALLOC (R372). -/
def effMgalloc (a : RArgs) (s : State) : Except Stop State := do
  let x := (s.me.readX a.rs1).toNat
  let d := x % 2 ^ 9
  let nord := x / 2 ^ 16 % 2 ^ 16
  need (decide (1 ≤ d) && decide (d ≤ 256) && decide (nord ≠ 0) && decide (x / 2 ^ 9 % 2 ^ 7 = 0) && decide (x / 2 ^ 32 = 0)) .illegal
    (BitVec.ofNat 64 (encR 0x3D 4 a)) 0
  let cl := clusterOf s.cur
  let free := (List.range 128).find? fun n => !((s.mergeSlot cl n).valid)
  match free with
  | some n =>
    if mergeUsed (s.cluster cl) + mergeBytes d ≤ 2 ^ 18 then
      .ok ((s.setMerge cl n { MergeSlot.reset with valid := true, dim := d, nord := nord, o := List.replicate d 0 }).putX 0 a.rd
        (BitVec.ofNat 64 n))
    else .ok (s.putX 0 a.rd mgNone)
  | none => .ok (s.putX 0 a.rd mgNone)

/-- The FP32 encoding of −∞. -/
def negInf : Nat := 0xFF800000

/-- The pair says that nothing is there yet: −∞ with a zero of either sign (R374). -/
def emptyPair (m l : Nat) : Bool := decide (m = negInf) && decide (l % 2 ^ 31 = 0)

/-- e^(x − top), each step rounded to FP32. The NaN of an invalid difference is not decoded again. -/
def expDiff (x top : Nat) : Flagged Nat :=
  let d := fp32.op2 (Num.sub .rne) .rne x top
  if (fp32.decode d.1).1.isNan then (fp32.nanEnc, d.2)
  else
    let e := fp32.op1 Num.exp .rne d.1
    (e.1, d.2 ||| e.2)

/-- x × a + y × b, exact, rounded once to FP32. -/
def twoTerm (x a y b : Nat) : Flagged Nat :=
  let p := fp32.decode x
  let q := fp32.decode y
  let u := (fp32.decode a).1
  let v := (fp32.decode b).1
  if p.1.isNan || q.1.isNan || u.isNan || v.isNan then (fp32.nanEnc, p.2 ||| q.2)
  else
    let m := p.1.mul u
    let n := q.1.mul v
    if m.1.isNan || n.1.isNan then (fp32.nanEnc, m.2 ||| n.2)
    else
      let r := m.1.add n.1 .rne
      let e := fp32.round r.1 .rne false
      (e.1, r.2 ||| e.2)

/-- Combine (R374). -/
def MergeSlot.combine (k : MergeSlot) (t : Partial) : MergeSlot :=
  if emptyPair t.m.toNat t.l.toNat then k
  else if emptyPair k.m.toNat k.l.toNat then { k with m := t.m, l := t.l, o := t.o }
  else
    let top := fp32.pick true k.m.toNat t.m.toNat
    let a := expDiff k.m.toNat top.1
    let b := expDiff t.m.toNat top.1
    let l := twoTerm k.l.toNat a.1 t.l.toNat b.1
    let os := (k.o.zip t.o).map fun e => twoTerm e.1.toNat a.1 e.2.toNat b.1
    { k with m := BitVec.ofNat 32 top.1, l := BitVec.ofNat 32 l.1, o := os.map fun e => BitVec.ofNat 32 e.1,
             flags := os.foldl (fun f e => f ||| e.2) (k.flags ||| top.2 ||| a.2 ||| b.2 ||| l.2) }

/-- Window entries at NEXT folded in order. -/
def MergeSlot.fold (k : MergeSlot) (fuel : Nat) : MergeSlot :=
  match fuel with
  | 0 => k
  | f + 1 =>
    match sget none k.win (k.next % 16) with
    | some t => ({ k.combine t with win := sset none k.win (k.next % 16) none, next := k.next + 1 } : MergeSlot).fold f
    | none => k

/-- An ordinal that a slot does not take from a sender (R373). -/
def mgBad (k : MergeSlot) (ord sender : Nat) : Bool :=
  !k.valid || decide (k.nord ≤ ord) || decide (ord < k.next)
    || (decide (ord < k.next + 16) && (sget none k.win (ord % 16)).isSome)
    || (!(k.senders.contains sender) && decide (k.senders.length = 8))

/-- A partial placed in the window, and what is ready folded. -/
def MergeSlot.place (k : MergeSlot) (ord sender : Nat) (t : Partial) : MergeSlot :=
  ({ k with senders := if k.senders.contains sender then k.senders else k.senders ++ [sender],
            win := sset none k.win (ord % 16) (some t) } : MergeSlot).fold 16

/-- The partial of a request, its o read now. -/
def MgReq.partial_ (r : MgReq) (s : State) : Partial :=
  { m := r.m, l := r.l, o := r.places.map fun e => BitVec.ofNat 32 (s.load e.pa 4) }

/-- The sender number of a strand (Table 15.4). -/
def senderOf (n : Nat) : Nat := n % 128

/-- A quotient of MGGET. -/
def mgQuotient (fmt o l : Nat) : Flagged Nat :=
  let x := fp32.decode o
  let y := fp32.decode l
  let q := x.1.div y.1
  let r := (if fmt = 0x11 then bf16 else fp32).round q.1 .rne false
  (r.1, x.2 ||| y.2 ||| q.2 ||| r.2)

/-- MGGET's stores, in ascending order (R375): the state, the flags and {M, L}. Dirty bits and lines are theirs: an MGGET that waits has written
nothing (R376). -/
def mgOut (r : MgReq) (k : MergeSlot) (s : State) : State × BitVec 8 × Word :=
  let qs := k.o.map fun o => mgQuotient r.fmt o.toNat k.l.toNat
  let n := if r.fmt = 0x11 then 2 else 4
  let ws := (r.places.zip qs).map fun e => { at_ := e.1, size := n, value := e.2.1, objid := r.objid }
  (s.writeParts r.strand (partsOf ws), qs.foldl (fun f q => f ||| q.2) k.flags, BitVec.ofNat 64 (k.m.toNat * 2 ^ 32 + k.l.toNat))

/-- MGPUT as the issue logic sees it, without its effect. -/
def bodyMgputOf (a : RArgs) : Body :=
  { reads := [rc a.rs1, rx a.rs2, rx a.rd], sync := if a.sr then some (rc a.rs1) else none, sc := a.sc, eff := fun _ s => .ok s }
/-- MGGET. -/
def bodyMggetOf (a : RArgs) : Body :=
  { reads := [rc a.rs1, rx a.rs2], sync := if a.sr then some (rc a.rs1) else none, writes := [rx a.rd], sc := a.sc,
    eff := fun _ s => .ok s }

/-- The word of a waiting merge instruction. -/
def MgReq.word (r : MgReq) : Word := BitVec.ofNat 64 (encR 0x3D (if r.get then 6 else 5) r.args)

/-- A waiting merge instruction fails (R373, R376): ILLEGAL with its own word at its strand's next boundary. -/
def State.failReq (s : State) (r : MgReq) : State :=
  let s := s.setStrand r.strand { s.strand r.strand with status := .running, wait := .none }
  s.post r.strand (mkEvent 10 0 .illegal r.word 0)

/-- A waiting MGPUT is accepted, or fails. -/
def acceptPut (cl : Nat) (r : MgReq) (s : State) : State :=
  let k := s.mergeSlot cl r.slot
  if mgBad k r.ord (senderOf r.strand) then s.failReq r
  else
    let s := s.setMerge cl r.slot (k.place r.ord (senderOf r.strand) (r.partial_ s))
    s.completed r.strand (((s.strand r.strand).begin (bodyMgputOf r.args)).goOn s.cycle r.args.sc)

/-- A waiting MGGET completes. -/
def acceptGet (cl : Nat) (r : MgReq) (s : State) : State :=
  s.lateWrite r.strand (bodyMggetOf r.args) fun s =>
    let o := mgOut r (s.mergeSlot cl r.slot) s
    let t := (o.1.strand r.strand).begin (bodyMggetOf r.args)
    o.1.completed r.strand ({ t.setX r.args.rd o.2.2 with fflags := t.fflags ||| o.2.1 }.goOn s.cycle r.args.sc)

/-- The waiting MGPUT of lowest ordinal on a slot whose ordinal is below NEXT + 16. -/
def readyPut (s : State) (cl slot : Nat) : Option MgReq :=
  let k := s.mergeSlot cl slot
  let rs := (s.cluster cl).mgWait.filter fun r => !r.get && decide (r.slot = slot) && decide (r.ord < k.next + 16)
  match leastOf (rs.map (·.ord)) with
  | none => none
  | some n => rs.find? fun r => decide (r.ord = n)

/-- Waiting MGPUTs of a slot accepted in ascending ordinal as NEXT advances. -/
def servePuts (cl slot fuel : Nat) (s : State) : State :=
  match fuel with
  | 0 => s
  | f + 1 =>
    match readyPut s cl slot with
    | none => s
    | some r =>
      servePuts cl slot f (acceptPut cl r (s.setCluster cl { s.cluster cl with mgWait := (s.cluster cl).mgWait.erase r }))

/-- Everything that waits on a slot and may go on. -/
def serveSlot (cl slot : Nat) (s : State) : State :=
  let s := servePuts cl slot ((s.cluster cl).mgWait.length + 1) s
  let k := s.mergeSlot cl slot
  if k.valid ∧ k.next = k.nord then
    let gets := (s.cluster cl).mgWait.filter fun r => r.get && decide (r.slot = slot)
    gets.foldl (fun s r => acceptGet cl r (s.setCluster cl { s.cluster cl with mgWait := (s.cluster cl).mgWait.erase r })) s
  else s

/-- What MGPUT's operand meets. -/
def partialShape (c : Cap) : Bool := decide (c.rank = 1) && decide (c.fmt = 0x12) && decide (c.sparse = 0)
/-- What MGGET's destination meets. -/
def quotientShape (c : Cap) : Bool :=
  decide (c.rank = 1) && (decide (c.fmt = 0x12) || decide (c.fmt = 0x11)) && decide (c.sparse = 0)

/-- The elements of a merge operand, all checked. -/
def mgElems (s : State) (reg n : Nat) (use : Use) : Except Stop (List Elem) :=
  let c := s.me.readC reg
  gather ((List.range n).map fun j : Nat => placeElem s (s.pidOf s.cur) c reg (accOf s use (esize c.fmt) false) [Int.ofNat j])

/-- A request of the current strand joins those that wait. -/
def State.mgPark (s : State) (r : MgReq) : State :=
  let cl := clusterOf s.cur
  (s.setCluster cl { s.cluster cl with mgWait := (s.cluster cl).mgWait ++ [r] }).setMe (s.me.parked .request)

/-- MGPUT (R373). -/
def effMgput (a : RArgs) (s : State) : Except Stop State := do
  let w := (s.me.readX a.rs2).toNat
  let x := (s.me.readX a.rd).toNat
  let slot := w % 128
  let ord := w / 2 ^ 16 % 2 ^ 16
  let cl := clusterOf s.cur
  let k := s.mergeSlot cl slot
  need (decide (w = slot + ord * 2 ^ 16) && !(mgBad k ord (senderOf s.cur))) .illegal (BitVec.ofNat 64 (encR 0x3D 5 a)) 0
  check15 s (s.me.readC a.rs1) a.rs1 permLD (partialShape (s.me.readC a.rs1))
  let es ← mgElems s a.rs1 k.dim useRead
  let r : MgReq := { strand := s.cur, args := a, get := false, slot := slot, ord := ord, m := BitVec.ofNat 32 (x / 2 ^ 32),
                     l := BitVec.ofNat 32 x, objid := (s.me.readC a.rs1).objid, places := es.map Elem.at_, fmt := 0x12 }
  let s := s.touchAll es 4 false
  if k.next + 16 ≤ ord then .ok (s.mgPark r)
  else .ok (serveSlot cl slot (s.setMerge cl slot (k.place ord (senderOf s.cur) (r.partial_ s))))

/-- MGGET (R375). -/
def effMgget (a : RArgs) (s : State) : Except Stop State := do
  let w := (s.me.readX a.rs2).toNat
  let cl := clusterOf s.cur
  let k := s.mergeSlot cl w
  need (decide (w < 128) && k.valid) .illegal (BitVec.ofNat 64 (encR 0x3D 6 a)) 0
  let c := s.me.readC a.rs1
  check15 s c a.rs1 permST (quotientShape c)
  let es ← mgElems s a.rs1 k.dim useWrite
  let r : MgReq := { strand := s.cur, args := a, get := true, slot := w, ord := 0, m := 0, l := 0, objid := c.objid,
                     places := es.map Elem.at_, fmt := c.fmt }
  let s := es.foldl (fun s e => s.touchPage e false) s
  if k.next = k.nord then
    let o := mgOut r k s
    .ok ((o.1.putX 0 a.rd o.2.2).orFlags o.2.1)
  else .ok (s.mgPark r)

/-- MGFREE (R376). -/
def effMgfree (a : RArgs) (s : State) : Except Stop State := do
  let w := (s.me.readX a.rs1).toNat
  let cl := clusterOf s.cur
  need (decide (w < 128)) .illegal (BitVec.ofNat 64 (encR 0x3D 7 a)) 0
  if (s.mergeSlot cl w).valid then
    let rs := (s.cluster cl).mgWait.filter fun r => decide (r.slot = w)
    let s := (s.setMerge cl w MergeSlot.reset).setCluster cl { (s.setMerge cl w MergeSlot.reset).cluster cl with
      mgWait := (s.cluster cl).mgWait.filter fun r => decide (r.slot ≠ w) }
    .ok (rs.foldl State.failReq s)
  else .ok s

/-! As the issue logic sees them. -/

/-- An instruction with the source x[rs1] alone. -/
def bodyX1 (a : RArgs) (write : Bool) (eff : State → Except Stop State) : Body :=
  { reads := [rx a.rs1], sync := if a.sr then some (rx a.rs1) else none, writes := if write then [rx a.rd] else [], sc := a.sc,
    eff := fun _ => eff }
/-- KVUNSUB. -/
def bodyKvunsub (a : RArgs) : Body := bodyX1 a false (effKvunsub a)
/-- KVNEXT. -/
def bodyKvnext (a : RArgs) : Body := { reads := [], writes := [rx a.rd], sc := a.sc, eff := fun _ => effKvnext a }
/-- KVREL. -/
def bodyKvrel (a : RArgs) : Body := bodyX1 a false (effKvrel a)
/-- MGALLOC. -/
def bodyMgalloc (a : RArgs) : Body := bodyX1 a true (effMgalloc a)
/-- MGPUT. -/
def bodyMgput (a : RArgs) : Body := { bodyMgputOf a with eff := fun _ => effMgput a }
/-- MGGET. -/
def bodyMgget (a : RArgs) : Body := { bodyMggetOf a with eff := fun _ => effMgget a }
/-- MGFREE. -/
def bodyMgfree (a : RArgs) : Body := bodyX1 a false (effMgfree a)

end Sys2Proof.Machine
end

