-- ==== Sys2Proof/Machine/Tend.lean ====
section
/-! DEFINITION. TEND (R53, R108, R109, R240): the end of a task and of a SPAWN child. -/

namespace Sys2Proof.Machine

/-- A strand has an operation in a copy queue that has neither completed nor faulted. -/
def CopyQueue.awaits (q : CopyQueue) (n : Nat) : Bool :=
  (if q.halted then q.ops.tail else q.ops).any fun o => decide (o.strand = n)

/-- The same of a link queue. -/
def LinkQueue.awaits (q : LinkQueue) (n : Nat) : Bool :=
  (if q.halted then q.ops.tail else q.ops).any fun o => decide (o.strand = n)

/-- A strand has a matrix, copy or link operation that has neither completed nor faulted. -/
def opsPending (s : State) (n : Nat) : Bool :=
  let k := s.core (coreOf n)
  (k.mq.any fun o => decide (o.strand = n)) || (k.cq.any fun q => q.2.awaits n)
    || (s.die (dieOf n)).lq.any fun q => q.2.awaits n

/-- The other contexts of a strand's core that hold an unreaped child of its task (R240). -/
def childrenOf (s : State) (n : Nat) : List Nat :=
  ((List.range 16).map fun k => 16 * coreOf n + k).filter fun k => (s.strand k).isChild && decide ((s.strand k).task = (s.strand n).task)

/-- The launch records of a cluster that a task's head strand owns and that are not detached. -/
def launchesOf (s : State) (cl n : Nat) : List (Nat × Launch) :=
  (List.range 32).filterMap fun k =>
    match s.launchAt cl k with
    | some l => if l.source = .task n ∧ l.detach = false then some (k, l) else none
    | none => none

/-- Step 2 of R108: what TEND waits for has come true. -/
def tendReady (s : State) (n : Nat) : Bool :=
  !(opsPending s n) && ((s.strand n).child || ((childrenOf s n).all (fun k => decide ((s.strand k).status = .ended))
    && (launchesOf s (clusterOf n) n).all fun e => e.2.complete))

/-- What every strand gives up as it ends: its bank locks, its skeins, its query slots; a release at DIE (R108, R337, R362, R354). -/
def State.letGo (s : State) (n : Nat) : State :=
  let cl := clusterOf n
  let s := (s.unlockAll n).leaveSkeins n
  let s := (ownKv s cl n).foldl (fun s q => s.unsubscribe cl q) s
  s.l1Release (coreOf n) ((s.pidOf n).getD 0)

/-- A child ends: its context keeps the status word for REAP. -/
def State.endChild (s : State) (n : Nat) (x10 : Word) : State :=
  let t := s.strand n
  s.setStrand n { t.freed with status := .ended, child := true, task := t.task, endStatus := x10 }

/-- The strand that the dispatcher started ends its task. -/
def State.endTask (s : State) (n : Nat) (x10 : Word) : State :=
  let pid := (s.pidOf n).getD 0
  let cl := clusterOf n
  let id := (s.strand n).task
  let s := (childrenOf s n).foldl (fun s k => s.setStrand k (s.strand k).freed) s
  let s := (launchesOf s cl n).foldl (fun s e => s.freeRecord cl e.1) s
  let s := s.endFrame pid n
  let s := s.setStrand n (s.strand n).freed
  match id with
  | some i => s.taskEnded i x10
  | none => s

/-- TEND. While it waits it keeps the status word that it read at issue. -/
def effTend (_a : IArgs) (s : State) : Except Stop State := do
  let n := s.cur
  let t := s.me
  need (decide (t.frames.length = 0)) .tstack (BitVec.ofNat 64 t.frames.length) 0
  let v := match t.wait with
    | .tend v => v
    | _ => t.readX 10
  if tendReady s n = false then .error (.park (.tend v))
  else if t.child then .ok ((s.letGo n).endChild n v)
  else .ok ((s.letGo n).endTask n v)

/-- TEND as the issue logic sees it. -/
def bodyTend (a : IArgs) : Body := { reads := [rx 10], sc := a.sc, eff := fun _ => effTend a }

end Sys2Proof.Machine
end

