-- ==== Sys2Proof/Machine/Slices.lean ====
section
/-! DEFINITION. The L2 instructions (R393 to R396): reservations of ways for a virtual range, and hints, write-backs and invalidations of
the lines of a span. -/

namespace Sys2Proof.Machine

/-- The word of an L2 instruction. -/
def l2Word (f4 : Nat) (a : RArgs) : Word := BitVec.ofNat 64 (encR 0x3E f4 a)

/-- Check 5 of an L2 instruction accepts any valid kind. -/
def l2Check (s : State) (a : RArgs) (want : BitVec 14) : Except Stop Unit :=
  check15 s (s.me.readC a.rs1) a.rs1 want true

/-- The range of a capability's span, rounded out to lines; empty for an empty span. -/
def lineRange (c : Cap) : Nat × Nat :=
  match span c with
  | none => (0, 0)
  | some (lo, hi) => (lo.toNat / 128 * 128, (hi.toNat + 127) / 128 * 128)

/-- Ways reserved by the valid retention slots of a die, of one partition or of all. -/
def Die.reserved (d : Die) (pid : Option Nat) : Nat :=
  d.ret.foldl (fun n e =>
    if e.2.valid && (match pid with
      | some p => decide (e.1 / 8 = p)
      | none => true)
    then n + e.2.res else n) 0

/-- One bits of a way mask. -/
def wayCount (m : BitVec 16) : Nat := ((List.range 16).filter fun k => m.getLsbD k).length

/-- L2PIN (R394): one indivisible step at the retention logic of the strand's die. -/
def effL2pin (a : RArgs) (s : State) : Except Stop State := do
  let w := (s.me.readX a.rs2).toNat
  let res := w / 2 ^ 8 % 16
  need (decide (w / 2 ^ 3 % 32 = 0) && decide (w / 2 ^ 12 = 0) && decide (res ≤ 8)) .illegal (l2Word 0 a) 0
  l2Check s a (permLD ||| permDMA)
  let n := dieOf s.cur
  let d := s.die n
  let pid := s.myPid
  let key := 8 * pid + w % 8
  if (sget Retention.reset d.ret key).valid then .ok (s.putX 0 a.rd 1)
  else if wayCount (s.part pid).wmask < d.reserved (some pid) + res + 1 ∨ 8 < d.reserved none + res then .ok (s.putX 0 a.rd 2)
  else
    let r := lineRange (s.me.readC a.rs1)
    let slot : Retention := { valid := true, lo := r.1, hi := r.2, res := res, hit := 0, miss := 0, ovf := 0 }
    .ok ((s.setDie n { d with ret := sset Retention.reset d.ret key slot }).putX 0 a.rd 0)

/-- A line that leaves its retention slot becomes ordinary. -/
def L2Line.release (l : L2Line) (pid slot : Nat) : L2Line :=
  if l.pid = pid ∧ l.slot = some slot then { l with slot := none, prot := false } else l

/-- L2UNPIN (R395): the counters keep their values. -/
def effL2unpin (a : RArgs) (s : State) : Except Stop State := do
  let x := (s.me.readX a.rs1).toNat
  need (decide (x < 8)) .illegal (l2Word 1 a) 0
  let n := dieOf s.cur
  let d := s.die n
  let pid := s.myPid
  let r := sget Retention.reset d.ret (8 * pid + x)
  if r.valid = false then .ok (s.putX 0 a.rd 1)
  else
    let ret := sset Retention.reset d.ret (8 * pid + x) { r with valid := false, lo := 0, hi := 0, res := 0 }
    let l2 := d.l2.map fun e => (e.1, e.2.map fun l => l.release pid x)
    .ok ((s.setDie n { d with ret := ret, l2 := l2 }).putX 0 a.rd 0)

/-! Lines of a span (R396). -/

/-- What an L2 instruction does with a set in which it has found a line. -/
abbrev LineAct := List L2Line → L2Line → List L2Line

/-- A partition's lines in `[lo, hi)`, die-local line indexes, changed. -/
def Die.onLines (d : Die) (pid lo hi : Nat) (f : LineAct) : Die :=
  let hit (l : L2Line) : Bool := decide (l.pid = pid) && decide (lo ≤ l.line) && decide (l.line < hi)
  { d with l2 := (d.l2.map fun e => (e.1, (e.2.filter hit).foldl f e.2)).filter fun e => decide (e.2 ≠ []) }

/-- The dirty lines of a partition in `[lo, hi)` written back. -/
def Die.backLines (d : Die) (pid lo hi : Nat) : Die :=
  (d.l2.flatMap fun e => e.2.filter fun l => decide (l.pid = pid) && decide (lo ≤ l.line) && decide (l.line < hi)).foldl Die.writesBack d

/-- The part of a span on the 64 KiB page at `page`; `back` writes the lines back first. -/
def pageLines (pid lo hi : Nat) (back : Bool) (f : LineAct) (s : State) (page : Nat) : State :=
  let va := page * 2 ^ 16
  match translate s (some pid) va useRead with
  | .error e => s.walkedTo (.core (coreOf s.cur)) (e.walk (some pid) va)
  | .ok (leaf, pa) =>
    match s.place pa with
    | .gddr n =>
      let a := pa + (max lo va - va)
      let b := pa + (min hi (va + 2 ^ 16) - va)
      let s := s.touchLeaf (.core (coreOf s.cur)) pid va leaf false
      let d := if back then (s.die n).backLines pid (lineOf a) (lineOf a + (b - a) / 128) else s.die n
      s.setDie n (d.onLines pid (lineOf a) (lineOf a + (b - a) / 128) f)
    | _ => s

/-- The lines of a span changed, page by page; pages without a line of this card's GDDR7 are skipped. -/
def spanLines (c : Cap) (back : Bool) (f : LineAct) (s : State) : State :=
  let r := lineRange c
  ((List.range ((r.2 + 2 ^ 16 - 1) / 2 ^ 16 - r.1 / 2 ^ 16)).map (· + r.1 / 2 ^ 16)).foldl (pageLines s.myPid r.1 r.2 back f) s

/-- A line moves to the most or least recently used place. -/
def lineMove (mru : Bool) : LineAct := fun set l => if mru then l :: set.erase l else set.erase l ++ [l]
/-- A line is written back and stays clean. -/
def lineClean : LineAct := fun set l => set.map fun k => if k.way = l.way then { k with dirty := 0 } else k
/-- A line is written back and invalidated. -/
def lineDrop : LineAct := fun set l => set.filter fun k => decide (k.way ≠ l.way)

/-- The slices act on the lines of c[rs1] while the strand is Parked (R396); the end of the cycle finds them finished. -/
def State.actOn (s : State) (which : Fin 3) (a : RArgs) (f : LineAct) : State :=
  let u := spanLines (s.me.readC a.rs1) (decide (which ≠ 0)) f s
  u.setMe (u.me.parked (.slices which a))

/-- L2HINT. -/
def effL2hint (a : RArgs) (s : State) : Except Stop State := do
  let x := s.me.readX a.rs2
  need (decide (x.toNat ≤ 1)) .illegal (l2Word 2 a) 0
  l2Check s a permLD
  .ok (s.actOn 0 a (lineMove (decide (x = 1))))

/-- L2FLUSH. -/
def effL2flush (a : RArgs) (s : State) : Except Stop State := do
  l2Check s a permLD
  .ok (s.actOn 1 a lineClean)

/-- L2INV. -/
def effL2inv (a : RArgs) (s : State) : Except Stop State := do
  l2Check s a (permLD ||| permST)
  .ok (s.actOn 2 a lineDrop)

/-- An L2 instruction on a capability. -/
def bodyL2 (a : RArgs) (ctl wr : Bool) (eff : State → Except Stop State) : Body :=
  { reads := rc a.rs1 :: (if ctl then [rx a.rs2] else []), sync := if a.sr then some (rc a.rs1) else none,
    writes := if wr then [rx a.rd] else [], sc := a.sc, eff := fun _ => eff }
/-- L2PIN as the issue logic sees it. -/
def bodyL2pin (a : RArgs) : Body := bodyL2 a true true (effL2pin a)
/-- L2UNPIN. -/
def bodyL2unpin (a : RArgs) : Body :=
  { reads := [rx a.rs1], sync := if a.sr then some (rx a.rs1) else none, writes := [rx a.rd], sc := a.sc, eff := fun _ => effL2unpin a }
/-- L2HINT. -/
def bodyL2hint (a : RArgs) : Body := bodyL2 a true false (effL2hint a)
/-- L2FLUSH. -/
def bodyL2flush (a : RArgs) : Body := bodyL2 a false false (effL2flush a)
/-- L2INV. -/
def bodyL2inv (a : RArgs) : Body := bodyL2 a false false (effL2inv a)

/-- L2HINT, L2FLUSH or L2INV by its number. -/
def bodySlices (which : Fin 3) (a : RArgs) : Body :=
  match which with
  | 0 => bodyL2hint a
  | 1 => bodyL2flush a
  | 2 => bodyL2inv a

/-- An instruction on the lines of a span completes when every slice has finished (R396). -/
def slicesTick (n : Nat) (s : State) : State :=
  let t := s.strand n
  match t.status, t.wait with
  | .parked, .slices k a => s.completed n ((t.begin (bodySlices k a)).goOn s.cycle a.sc)
  | _, _ => s

end Sys2Proof.Machine
end

