-- ==== Sys2Proof/Machine/LinkEngine.lean ====
section
/-! DEFINITION. The link engine and its queue (R468 to R478): LNCPY, LNRED, LNFENCE, LNSTAT, and the steps of an accepted operation. -/

namespace Sys2Proof.Machine

/-- The word of a link instruction. -/
def lnWord (f4 : Nat) (a : RArgs) : Word := BitVec.ofNat 64 (encR 0x3E f4 a)

/-- The link queue of a partition on a die. -/
def State.lq (s : State) (die pid : Nat) : LinkQueue := sget LinkQueue.reset (s.die die).lq pid

/-- A link queue replaced. -/
def State.setLq (s : State) (die pid : Nat) (q : LinkQueue) : State :=
  s.setDie die { s.die die with lq := sset LinkQueue.reset (s.die die).lq pid q }

/-! Issue (R470 to R472). -/

/-- LNCPY's pair: one format other than I4X, class D (R471). -/
def lncpyPair (src dst : Cap) : Bool :=
  decide (src.fmt = dst.fmt) && decide (src.sparse = 0) && decide (dst.sparse = 0) && decide (src.fmt ≠ fmtI4X)

/-- Two spans are identical or have no byte in common. -/
def spansApart (a b : Cap) : Bool :=
  match span a, span b with
  | some p, some q => decide (p = q) || decide (p.2 ≤ q.1) || decide (q.2 ≤ p.1)
  | _, _ => true

/-- A run of LNRED: rank 1, stride0 = 1, class D. -/
def lnredRun (c : Cap) : Bool := decide (c.rank = 1) && decide (c.stride 0 = 1) && decide (c.sparse = 0)

/-- LNRED's pair (R472). -/
def lnredPair (src dst : Cap) : Bool :=
  lnredRun src && lnredRun dst && decide (src.fmt = dst.fmt)
    && (decide (src.fmt = 0x12) || decide (src.fmt = 0x11) || decide (src.fmt = 0x05))
    && decide (src.extent 0 = dst.extent 0) && spansApart src dst

/-- The auxiliary of a link operation: the address of a barrier object, 0 for none or a completion word. -/
def linkAux (s : State) (aux reg : Nat) : Except Stop (State × Nat) :=
  match aux with
  | 0 => .ok (s, 0)
  | 1 => do
    let _ ← auxZero (s.me.readC reg) reg 8
    .ok (s, 0)
  | _ => engineBarrier s (s.me.readC reg) reg

/-- The issue checks of LNCPY and LNRED, and the operation they accept. -/
def linkIssue (red : Bool) (a : RArgs) (s : State) : Except Stop (State × LinkOp) := do
  let word := lnWord (if red then 11 else 10) a
  let w := (s.me.readX a.rs2).toNat
  let aux := w % 4
  need (decide (w / 2 ^ 2 % 2 ^ 30 = 0) && decide (aux ≠ 3) && !(decide (aux ≠ 0) && decide (a.rs1.val = 31))
    && s.myPart.paired.isSome) .illegal word 0
  let r := a.rs1.val + 1
  let s ← if aux = 0 then .ok s else readThem [rc r] s
  let src := s.me.readC a.rs1
  let dst := s.me.readC a.rd
  check15 s src a.rs1 (permLD ||| permDMA) (anyShape src)
  check15 s dst a.rd (permST ||| permDMA) (anyShape dst && if red then lnredPair src dst else lncpyPair src dst)
  match aux with
  | 0 => .ok ()
  | 1 => check15 s (s.me.readC r) r (permST ||| permDMA) (wordShape (s.me.readC r))
  | _ => check15 s (s.me.readC r) r (permBar ||| permDMA) (barShape (s.me.readC r))
  need (decide (elemCount dst < 2 ^ 40) && decide (bytesOf dst (elemCount dst) < 2 ^ 40)) .illegal word 0
  let (s, auxPa) ← linkAux s aux r
  .ok (s, { seq := 0, red := red, val := BitVec.ofNat 32 (w / 2 ^ 32), aux := aux, strand := s.cur, dst := dst, dstReg := a.rd,
            src := src, srcReg := a.rs1, auxCap := if aux = 0 then Cap.null else s.me.readC r, auxReg := r, auxPa := auxPa,
            started := false, prefixN := 0, sub := 0, flags := 0, sent := false, own := [], before := [], met := false, stop := none })

/-- The capabilities of a link operation leave the core: their registers are visited during a sweep (R442). -/
def visitOperands (o : LinkOp) (s : State) : State :=
  let s := (s.visitReg o.srcReg).visitReg o.dstReg
  if o.aux = 0 then s else s.visitReg o.auxReg

/-- An operation enters LQ; it is held while LQ is full, or, for an LNRED, while its tag is live or sixteen tags are. -/
def acceptLink (red : Bool) (a : RArgs) (s : State) : Except Stop State := do
  let r ← linkIssue red a s
  let o := r.2
  let s := r.1
  let pid := s.myPid
  let q := s.lq (dieOf s.cur) pid
  let live := (s.part pid).liveTags
  if 32 ≤ q.ops.length ∨ (red = true ∧ (live.contains o.val = true ∨ 16 ≤ live.length)) then .error .hold
  else
    let s := visitOperands o s
    let s := if red then s.setPart pid { s.part pid with liveTags := live ++ [o.val] } else s
    .ok (s.setLq (dieOf s.cur) pid { q with ops := q.ops ++ [{ o with seq := q.issued + 1 }], issued := q.issued + 1 })

/-- LNCPY. -/
def effLncpy (a : RArgs) (s : State) : Except Stop State := acceptLink false a s
/-- LNRED. -/
def effLnred (a : RArgs) (s : State) : Except Stop State := acceptLink true a s

/-! Faults (R475). -/

/-- The strand's index of element `n` of the destination. -/
def LinkOp.index (o : LinkOp) (n : Nat) : List Int := indexOf o.dst.view.dims n

/-- The fault record (Table 12.6, Table 22.5). -/
def linkRecord (s : State) (o : LinkOp) (cause fcap lstat : Nat) (fval : Word) : BitVec 512 :=
  let i := (List.range 8).map fun k => lowBits 20 ((o.index o.prefixN).getD k 0)
  let idx (k : Nat) : Nat := i.getD k 0
  BitVec.ofNat 512 (fcap % 32 * 2 ^ 6 + o.flags.toNat * 2 ^ 11 + 2 ^ 23 + cause * 2 ^ 24 + o.seq % 2 ^ 32 * 2 ^ 32
    + o.prefixN % 2 ^ 40 * 2 ^ 64 + bytesOf o.dst o.prefixN % 2 ^ 40 * 2 ^ 128
    + (idx 0 + idx 1 * 2 ^ 20 + idx 2 * 2 ^ 40) * 2 ^ 192 + (idx 3 + idx 4 * 2 ^ 20 + idx 5 * 2 ^ 40) * 2 ^ 256
    + (idx 6 + idx 7 * 2 ^ 20) * 2 ^ 320 + fval.toNat * 2 ^ 384
    + (lstat * 2 ^ 16 + s.cardNo * 2 ^ 12 + o.strand) * 2 ^ 448)

/-- The head of LQ replaced. -/
def State.setLinkHead (s : State) (die pid : Nat) (o : LinkOp) : State :=
  let q := s.lq die pid
  s.setLq die pid { q with ops := o :: q.ops.tail }

/-- Delivered bytes not yet subtracted go to the barrier (R474, R314); the last piece goes with the flags at completion. -/
def State.linkSubtract (s : State) (die pid : Nat) (o : LinkOp) : State :=
  let n := bytesOf o.dst o.prefixN
  if o.aux = 2 ∧ o.prefixN < elemCount o.dst then
    (s.setLinkHead die pid { o with sub := n }).barSub o.auxPa (n - o.sub) 0
  else s.setLinkHead die pid o

/-- The head of LQ halts: the barrier has what was delivered, the record is written, the issuer takes LINK. -/
def State.linkHalt (s : State) (die pid : Nat) (o : LinkOp) (cause fcap lstat : Nat) (fval : Word) : State :=
  let s := s.linkSubtract die pid { o with sent := false, own := [], before := [], stop := none }
  let q := s.lq die pid
  let s := s.setLq die pid { q with halted := true, record := linkRecord s o cause fcap lstat fval }
  s.post o.strand (mkEvent 3 0 .link (BitVec.ofNat 64 (lstat * 2 ^ 16 + cause * 2 ^ 8)) 5)

/-- The number of the chunk that an LNRED is at (R473). -/
def LinkOp.chunkIndex (o : LinkOp) : Nat := o.prefixN * esize o.src.fmt / 4096

/-- An element fault. The partner of an LNRED is told; the halt waits until what was delivered is visible, and everything before it (R411). -/
def State.linkFault (s : State) (die pid : Nat) (o : LinkOp) (t : TrapInfo) : State :=
  if s.posted (some pid) then s
  else
    let s := (s.walkedTo (.core (coreOf o.strand)) t.walk).linkHalt die pid o t.cause.code.toNat t.tcap.toNat 0 t.tval
    if o.red then { s with outbox := s.outbox ++ [Reply.partnerHalt pid o.val o.chunkIndex 5] } else s

/-- The head halts where its partner has, once it has come to that chunk (R475). CAUSE, FCAP and FVAL of such a record are not stated and are
free values (log 4). -/
def State.partnerStops (s : State) (die pid : Nat) (o : LinkOp) : State :=
  match o.stop with
  | some (k, lstat) =>
    if k ≤ o.chunkIndex then
      let f := s.fresh
      let g := f.2.fresh
      g.2.linkHalt die pid o (f.1.toNat % 256) (f.1.toNat / 256 % 32) lstat g.1
    else s.setLinkHead die pid o
  | none => s.setLinkHead die pid o

/-! Progress. -/

/-- The first operand that fails check 3 (R323, R325). -/
def LinkOp.stale (o : LinkOp) (s : State) (p : Partition) : Option TrapInfo :=
  o.operands.findSome? fun e => (staleRecord s p e.1).map fun r =>
    { cause := .capStale, tval := r, tcap := BitVec.ofNat 64 e.2 }

/-- An operation that starts or resumes makes check 3 on its operands. -/
def linkStart (die pid : Nat) (o : LinkOp) (s : State) : State :=
  match o.stale s (s.part pid) with
  | some t => s.linkFault die pid o t
  | none => s.partnerStops die pid { o with started := true }

/-- An element of a link operation, placed. -/
def linkElem (s : State) (o : LinkOp) (dst : Bool) (n : Nat) : Except Fail Elem :=
  if dst then engElem s (coreOf o.strand) o.dst o.dstReg { write := true, tagged := false, raw := !o.red } (o.index n)
  else engElem s (coreOf o.strand) o.src o.srcReg useRead (o.index n)

/-- One element of an LNCPY: moved unchanged, its granule tag cleared (R471). -/
def linkMove (s : State) (o : LinkOp) : Except Fail State :=
  match linkElem s o false o.prefixN, linkElem s o true o.prefixN with
  | .error f, _ => .error f
  | _, .error f => .error f
  | .ok a, .ok b =>
    let k := coreOf o.strand
    let n := esize o.dst.fmt
    .ok ((s.engTouch k a n false).engStore k o.strand b n (s.load a.pa n))

/-- The head of a link queue that is not halted, and whose requests the Seam does not hold. -/
def State.linkHead (s : State) (die pid : Nat) : Option LinkOp :=
  if (s.lq die pid).halted || s.seamHolds (some pid) then none else (s.lq die pid).ops.head?

/-- LNCPY_UNIT_DELIVER. -/
def lncpyDeliver (die pid : Nat) (s : State) : State :=
  match s.linkHead die pid with
  | none => s
  | some o =>
    if o.red || decide (elemCount o.dst ≤ o.prefixN) then s
    else if !o.started then linkStart die pid o s
    else match linkMove s o with
      | .error f => s.linkFault die pid o f.info
      | .ok s' =>
        let o := { o with prefixN := o.prefixN + 1 }
        if s'.posted (some pid) then s'.setLinkHead die pid o else s'.linkSubtract die pid o

/-- The number of elements of the chunk that an LNRED is at (R473). -/
def LinkOp.chunk (o : LinkOp) : Nat := min (4096 / max 1 (esize o.src.fmt)) (elemCount o.dst - o.prefixN)

/-- An LNRED's element must lie on the issuing card (R472). -/
def onCard (s : State) (reg : Nat) (r : Except Fail Elem) : Except Fail Elem :=
  match r with
  | .ok e => if s.isPeer e.pa then failTrap 11 .pageAttr (BitVec.ofNat 64 e.va) reg else .ok e
  | .error f => .error f

/-- The elements of the chunk, source and destination of each in turn. -/
def chunkElems (s : State) (o : LinkOp) (n k : Nat) : Except Fail (List (Elem × Elem)) :=
  match k with
  | 0 => .ok []
  | j + 1 =>
    match onCard s o.srcReg (linkElem s o false n), onCard s o.dstReg (linkElem s o true n), chunkElems s o (n + 1) j with
    | .error f, _, _ => .error f
    | .ok _, .error f, _ => .error f
    | .ok _, .ok _, .error f => .error f
    | .ok a, .ok b, .ok rest => .ok ((a, b) :: rest)

/-- LNRED_CHUNK_SEND: the half checks and reads its chunk and sends it. One without elements sends its head alone, so that its partner's format
and extent are compared (log 56). -/
def lnredSend (die pid : Nat) (s : State) : State :=
  match s.linkHead die pid with
  | none => s
  | some o =>
    if !o.red || o.sent || o.met && decide (elemCount o.dst ≤ o.prefixN) then s
    else if !o.started then linkStart die pid o s
    else match chunkElems s o o.prefixN o.chunk with
      | .error f => s.linkFault die pid o f.info
      | .ok es =>
        let n := esize o.src.fmt
        let own := es.map fun e => BitVec.ofNat 32 (s.load e.1.pa n)
        let before := es.map fun e => BitVec.ofNat 32 (s.load e.2.pa n)
        let s := es.foldl (fun s e => s.engTouch (coreOf o.strand) e.1 n false) s
        { s.setLinkHead die pid { o with sent := true, own := own, before := before } with
          outbox := s.outbox ++ [Reply.chunk pid o.val o.chunkIndex o.src.fmt (o.src.extent 0) own] }

/-- The sum of two elements (R473). -/
def linkSum (fmt a b : Nat) : Flagged Nat :=
  if fmt = 0x05 then ((a + b) % 2 ^ 32, 0)
  else if fmt = 0x12 then fp32.op2 (fun x y => x.add y .rne) .rne a b
  else
    let x := bf16.decode a
    let y := bf16.decode b
    let v := x.1.add y.1 .rne
    let r := fp32.round v.1 .rne false
    let e := bf16.round (fp32.decode r.1).1 .rne false
    (e.1, x.2 ||| y.2 ||| v.2 ||| r.2 ||| e.2)

/-- An element of a chunk combined: `own` and `before` are what its source and its destination held when the chunk was sent. Where a party has
written to either since then, the exchange may or may not have read the one, and may or may not overwrite the other (R482). -/
def lnredElement (o : LinkOp) (n : Nat) (s : State) (e : Elem × Elem) (own before partner : Nat) : State × BitVec 8 :=
  let a := s.either own (s.load e.1.pa n)
  let r := linkSum o.src.fmt a.2 partner
  let now := s.load e.2.pa n
  let v := if now = before then (a.1, r.1) else a.1.either r.1 now
  (v.1.engStore (coreOf o.strand) o.strand e.2 n v.2, r.2)

/-- The elements of a chunk combined in turn. -/
def lnredElements (o : LinkOp) (n : Nat) (es : List (Elem × Elem)) (vs : List (BitVec 32 × BitVec 32 × BitVec 32)) (s : State) :
    State × BitVec 8 :=
  (es.zip vs).foldl (fun r p =>
    let t := lnredElement o n r.1 p.1 p.2.1.toNat p.2.2.1.toNat p.2.2.2.toNat
    (t.1, r.2 ||| t.2)) (s, o.flags)

/-- LNRED_CHUNK_COMBINE: both copies of the chunk are here; the partner's elements come with the event. It is the LNRED of the same tag, and the
chunk that this half is at (R472). The bytes go to the barrier once everything before them is visible (R411, R474). -/
def lnredCombine (die pid : Nat) (h : ChunkHead) (extent : Nat) (partner : List (BitVec 32)) (s : State) : State :=
  match s.linkHead die pid with
  | none => s
  | some o =>
    if !o.red || !o.sent || decide (h.tag ≠ o.val) || decide (h.index ≠ o.chunkIndex) then s
    else if h.fmt.toNat ≠ o.src.fmt ∨ extent ≠ o.src.extent 0 then
      if o.prefixN = 0 then s.linkHalt die pid o Cause.capFormat.code.toNat o.srcReg 3 o.src.word1 else s
    else if partner.length ≠ o.chunk then s
    else match chunkElems s o o.prefixN o.chunk with
      | .error f => s.linkFault die pid o f.info
      | .ok es =>
        let r := lnredElements o (esize o.src.fmt) es (o.own.zip (o.before.zip partner)) s
        let u := { o with prefixN := o.prefixN + o.chunk, flags := r.2, sent := false, own := [], before := [], met := true }
        let s := if r.1.posted (some pid) then r.1.setLinkHead die pid u else r.1.linkSubtract die pid u
        match s.linkHead die pid with
        | some u => s.partnerStops die pid u
        | none => s

/-- The LNRED of a tag learns that its partner has halted: at the chunk named, or, where the partner was aborted, wherever it is (R475). -/
def LinkOp.told (o : LinkOp) (p : PartnerStop) : LinkOp :=
  if o.red && decide (o.val = p.tag) then { o with stop := some (if p.lstat = 4 then 0 else p.index, p.lstat.toNat) } else o

/-- LNRED_PARTNER_HALT: the partner has faulted (5) or been aborted (4). A half that has halted itself keeps its own record. -/
def lnredPartnerHalt (die pid : Nat) (p : PartnerStop) (s : State) : State :=
  let q := s.lq die pid
  if p.lstat ≠ 4 ∧ p.lstat ≠ 5 then s
  else match q.halted, q.ops with
    | true, o :: rest => s.setLq die pid { q with ops := o :: rest.map fun o => o.told p }
    | _, ops =>
      let s := s.setLq die pid { q with ops := ops.map fun o => o.told p }
      match s.linkHead die pid with
      | some o => if o.started then s.partnerStops die pid o else s
      | none => s

/-- The head leaves LQ. -/
def State.retireLink (s : State) (die pid : Nat) (o : LinkOp) : State :=
  let q := s.lq die pid
  let s := s.setLq die pid { q with ops := q.ops.tail, done := o.seq }
  if o.red then s.setPart pid { s.part pid with liveTags := (s.part pid).liveTags.erase o.val } else s

/-- The completion word of a link operation is written, or fails as a fault of it (R313, R474). -/
def linkWord (die pid : Nat) (o : LinkOp) (s : State) : State :=
  let k := coreOf o.strand
  match engElem s k o.auxCap o.auxReg useWrite [0] with
  | .error f => s.linkFault die pid o f.info
  | .ok e =>
    let s := (s.engTouch k e 8 true).retireLink die pid o
    let s := if s.isPeer e.pa then { s with unacked := sset 0 s.unacked o.strand (sget 0 s.unacked o.strand + 1) } else s
    s.completionWord o.strand 5 e.pa e.va (o.val.setWidth 64)

/-- LQ_COMPLETE: a release at FABRIC of every byte written, cumulative (R411). -/
def lqComplete (die pid : Nat) (s : State) : State :=
  match s.linkHead die pid with
  | none => s
  | some o =>
    if !o.started || decide (o.prefixN < elemCount o.dst) || o.red && !o.met || s.posted (some pid) then s
    else match o.aux with
      | 0 => s.retireLink die pid o
      | 1 => linkWord die pid o s
      | _ => (s.retireLink die pid o).barSub o.auxPa (bytesOf o.dst o.prefixN - o.sub) (if o.red then o.flags else 0)

/-- One cycle of a link queue; what comes from the partner comes as an event. -/
def lqTick (die pid : Nat) (s : State) : State :=
  match s.linkHead die pid with
  | none => s
  | some o =>
    if !o.started then linkStart die pid o s
    else if elemCount o.dst ≤ o.prefixN ∧ (o.met || !o.red) then lqComplete die pid s
    else if o.red then lnredSend die pid s
    else lncpyDeliver die pid s

/-! LNFENCE and LNSTAT (R476, R477). -/

/-- LNFENCE: what it waits for is fixed when it first issues. -/
def effLnfence (_a : RArgs) (s : State) : Except Stop State :=
  let q := s.lq (dieOf s.cur) s.myPid
  let last := match s.me.wait with
    | .fence t => (t.headD (5, 0)).2
    | _ => q.issued
  if last ≤ q.done then .ok (s.l1Acquire (coreOf s.cur)) else .error (.park (.fence [(5, last)]))

/-- Commands 2 and 3 drop the head of a halted LQ. Its partner learns of it. -/
def linkAbort (die pid : Nat) (bar : Bool) (s : State) : State :=
  let q := s.lq die pid
  match q.halted, q.ops with
  | true, o :: _ =>
    let s := (s.setLq die pid { q with halted := false, record := clearValid q.record }).retireLink die pid o
    let s := if o.red then { s with outbox := s.outbox ++ [Reply.partnerHalt pid o.val o.chunkIndex 4] } else s
    if bar && decide (o.aux = 2) then s.barSub o.auxPa (bytesOf o.dst (elemCount o.dst) - o.sub) o.flags else s
  | _, _ => s

/-- Command 1 resumes a halted LQ. -/
def linkResume (die pid : Nat) (s : State) : State :=
  let q := s.lq die pid
  if q.halted then
    s.setLq die pid { q with halted := false, record := clearValid q.record,
                             ops := match q.ops with
                               | o :: rest => { o with started := false } :: rest
                               | [] => [] }
  else s

/-- What LNSTAT selects. -/
def linkStatus (s : State) (q : LinkQueue) (paired : Bool) (sel : Nat) : Word :=
  if sel = 0 then
    BitVec.ofNat 64 (q.halted.toNat * 2 ^ 15 + (decide (s.seam = .up)).toNat * 2 ^ 14 + paired.toNat * 2 ^ 13 + q.ops.length)
  else if sel ≤ 8 then BitVec.ofNat 64 (q.record.toNat / 2 ^ (64 * (sel - 1)) % 2 ^ 64)
  else if sel = 9 then seqWord q.issued q.done
  else 0

/-- LNSTAT. -/
def effLnstat (a : RArgs) (s : State) : Except Stop State := do
  let x := (s.me.readX a.rs1).toNat
  need (decide (x < 64)) .illegal (lnWord 13 a) 0
  let n := dieOf s.cur
  let pid := s.myPid
  let s := match x / 16 with
    | 0 => s
    | 1 => linkResume n pid s
    | c => linkAbort n pid (decide (c = 3)) s
  .ok (s.putX 0 a.rd (linkStatus s (s.lq n pid) s.myPart.paired.isSome (x % 16)))

/-! As the issue logic sees them. -/

/-- LNCPY and LNRED. -/
def bodyLink (a : RArgs) (eff : State → Except Stop State) : Body :=
  { reads := [rc a.rs1, rc a.rd, rx a.rs2], sync := if a.sr then some (rc a.rs1) else none, sc := a.sc, eff := fun _ => eff }
/-- LNCPY. -/
def bodyLncpy (a : RArgs) : Body := bodyLink a (effLncpy a)
/-- LNRED. -/
def bodyLnred (a : RArgs) : Body := bodyLink a (effLnred a)
/-- LNFENCE. -/
def bodyLnfence (a : RArgs) : Body := { reads := [], sc := a.sc, eff := fun _ => effLnfence a }
/-- LNSTAT. -/
def bodyLnstat (a : RArgs) : Body :=
  { reads := [rx a.rs1], sync := if a.sr then some (rx a.rs1) else none, writes := [rx a.rd], sc := a.sc, eff := fun _ => effLnstat a }

end Sys2Proof.Machine
end

