-- ==== Sys2Proof/Machine/Manager.lean ====
section
/-! DEFINITION. The partition manager and Thimble (R444 to R454): creation, change and destruction of partitions, swaps, migration,
measurements, evidence and keys; boot (R452); clock, thermal and power events (R455, R456). -/

namespace Sys2Proof.Machine

/-! Clusters and regions that change hands (R445). -/

/-- A physical address lies in the scratchpad window of a core that satisfies the test. -/
def State.inWindow (s : State) (f : Nat → Bool) (pa : Nat) : Bool :=
  match s.place pa with
  | .bank core _ => f core
  | _ => false

/-- The scratchpad bytes, tags and full/empty bits of the cores that satisfy the test cleared. -/
def State.clearWindows (s : State) (f : Nat → Bool) : State :=
  { s with mem := skeep (fun a => !(s.inWindow f a)) s.mem, tags := skeep (fun a => !(s.inWindow f (64 * a))) s.tags,
           fe := skeep (fun a => !(s.inWindow f (8 * a))) s.fe }

/-- A cluster's state reset: contexts, cores, scratchpads, queues, links, skeins, dispatcher, KMU, merge buffer. The offline mask is
kept. -/
def State.resetCluster (s : State) (cl : Nat) : State :=
  let c := s.cluster cl
  let s := s.clearWindows fun k => decide (k / 8 = cl)
  let s : State := { s with strands := sclear (128 * cl) (128 * cl + 128) s.strands, cores := sclear (8 * cl) (8 * cl + 8) s.cores }
  s.setCluster cl { Cluster.reset with coreoff := c.coreoff, coreoffNew := c.coreoffNew }

/-- A cluster joins a partition: its state is reset, the offline mask takes effect, and ADMIT is 0x0001 in every core that is not
offline (R235, R445, R446). -/
def State.joinCluster (s : State) (cl : Nat) : State :=
  let s := s.resetCluster cl
  let s := s.setCluster cl { s.cluster cl with coreoff := s.cluster cl |>.coreoffNew }
  ((List.range 8).filter fun k => !(s.offline (8 * cl + k))).foldl (fun s k =>
    s.setCore (8 * cl + k) { s.core (8 * cl + k) with admitMask := 1 }) s

/-- The L2 lines of a region discarded (R386), and what the memory controllers keep of its blocks. -/
def Die.dropRegion (d : Die) (r : Nat) : Die :=
  { d with writes := d.writes.filter fun w => decide (w.line / 2 ^ 23 ≠ r),
           noMac := sclear (r * 2 ^ 22) ((r + 1) * 2 ^ 22) d.noMac,
           l2 := (d.l2.map fun e => (e.1, e.2.filter fun l => decide (l.line / 2 ^ 23 ≠ r))).filter fun e => decide (e.2 ≠ []) }

/-- The physical address of byte 0 of region `k`, 128 × die + r. -/
def State.regionBase (s : State) (k : Nat) : Nat := s.cardNo * 2 ^ 47 + k / 128 * 2 ^ 46 + k % 128 * 2 ^ 30

/-- A write of every byte of `[lo, hi)` of this card's GDDR7: what derives from a marked line of it is invalidated first (R434). -/
def State.noteRange (s : State) (lo hi : Nat) : State :=
  [0, 1].foldl (fun s n =>
    ((s.die n).marks.map fun e => s.cardNo * 2 ^ 47 + n * 2 ^ 46 + e.1 * 128).foldl (fun s pa =>
      if lo ≤ pa ∧ pa < hi then s.noteLine pa else s) s) s

/-- A region changes partition: its lines are discarded, and its bytes, tags and MACs are zero before the new owner reaches it. -/
def State.giveRegion (s : State) (k : Nat) (r : Option Region) : State :=
  let d := (s.die (k / 128)).dropRegion (k % 128)
  let s := s.setDie (k / 128) { d with regions := sset none d.regions (k % 128) r }
  let lo := s.regionBase k
  let s := s.noteRange lo (lo + 2 ^ 30)
  { s with mem := sclear lo (lo + 2 ^ 30) s.mem, under := sclear lo (lo + 2 ^ 30) s.under, tags := sclear (lo / 64) ((lo + 2 ^ 30) / 64) s.tags }

/-- A layout change (R453). -/
def State.newLayout (s : State) : State := { s with epoch := s.epoch + 1 }

/-! Descriptors (Table 21.5). -/

/-- The eight words of a descriptor. -/
def descWords (d : Descriptor) : List Nat :=
  [d.partid.val + d.clusters.toNat * 2 ^ 32, d.ptroot.toNat / 2 ^ 12 * 2 ^ 12 + d.n1.val * 2 ^ 59, d.imgbase.toNat / 2 ^ 20 * 2 ^ 20,
   d.frameid.toNat, d.framesz.val + d.frameva.toNat / 2 ^ 19 * 2 ^ 19, d.vbase.toNat + d.vcount.toNat * 2 ^ 16,
   d.savebase.toNat / 2 ^ 20 * 2 ^ 20, 0]

/-- A number as `n` bytes, least significant first. -/
def leBytes (n v : Nat) : List Byte :=
  match n with
  | 0 => []
  | k + 1 => BitVec.ofNat 8 v :: leBytes k (v / 256)

/-- The digest of a descriptor. -/
def descDigest (d : Descriptor) : BitVec 512 := Config.sha3_512 ((descWords d).flatMap (leBytes 8))

/-- A measurement extended by a digest (R452). -/
def extendMeas (m d : BitVec 512) : BitVec 512 := Config.sha3_512 (leBytes 64 m.toNat ++ leBytes 64 d.toNat)

/-- The clusters of a descriptor. -/
def descClusters (d : Descriptor) : List Nat := (List.range 32).filter fun c => d.clusters.getLsbD c

/-- Version slots of two descriptors are apart. -/
def slotsApart (a b : Descriptor) : Bool :=
  decide (a.vcount = 0) || decide (b.vcount = 0) || decide (a.vbase.toNat + a.vcount.toNat ≤ b.vbase.toNat)
    || decide (b.vbase.toNat + b.vcount.toNat ≤ a.vbase.toNat)

/-- What a descriptor must meet beside the other partitions (R440, R444): fields aligned, clusters, regions and version slots its
own. -/
def descOk (s : State) (d : Descriptor) : Bool :=
  let other (n : Nat) : Bool := decide (n ≠ d.partid.val)
  decide (d.frameid.toNat % 2 = 0) && decide (d.n1.val ≤ 25)
    && ((descClusters d).all fun c => match s.pidOfCluster c with
      | some p => decide (p = d.partid.val)
      | none => true)
    && (d.regions.all fun k => decide (k < 256) && decide (k % 128 < s.dieGiB)
      && match sget none (s.die (k / 128)).regions (k % 128) with
        | some r => decide (r.pid = d.partid.val)
        | none => true)
    && decide (d.vbase.toNat + d.vcount.toNat ≤ 65536)
    && s.parts.all fun e => !(e.2.present && other e.1) || slotsApart e.2.desc d

/-- An entry of a partition's object table lies in its own memory. -/
def ownEntry (s : State) (pid i : Nat) : Bool :=
  match s.place (objAt (s.part pid) i), s.regionOf (objAt (s.part pid) i) with
  | .gddr _, some r => decide (r.pid = pid)
  | _, _ => false

/-- An entry as creation writes it (Table 21.3): FREE at GEN 0, its other fields zero. -/
def freeEntry (pid : Nat) (s : State) (i : Nat) : State :=
  let p := s.part pid
  if ownEntry s pid i then (((s.setObjWord p i 0 0).setObjWord p i 1 0).setObjWord p i 2 (2 * 2 ^ 8)).setObjWord p i 3 0 else s

/-- Creation writes every entry of the object table FREE at GEN 0 (R435). -/
def initTable (pid : Nat) (s : State) : State := (List.range (objCount (s.part pid))).foldl (freeEntry pid) s

/-- The frame objects of a partition's contexts made LIVE at GEN 0 (R440), where its object table has them. -/
def initFrames (pid : Nat) (s : State) : State :=
  let p := s.part pid
  ((s.coreMap pid).flatMap fun c => (List.range 16).map fun k => 16 * c + k).foldl (fun s n =>
    [0, 1].foldl (fun s sel =>
      let i := frameObj s pid n sel
      if i < objCount p ∧ ownEntry s pid i = true then
        (((s.setObjWord p i 0 (p.desc.frameva.toNat + frameSize p * frameIndex s pid n)).setObjWord p i 1 (frameSize p)).setObjWord
          p i 2 0).setObjWord p i 3 0
      else s) s) s

/-- A version slot lies in a descriptor's range. -/
def hasSlot (d : Descriptor) (n : Nat) : Bool := decide (d.vbase.toNat ≤ n) && decide (n < d.vbase.toNat + d.vcount.toNat)

/-- Version slots given to a partition that did not have them start at zero (R449). -/
def State.giveSlots (s : State) (old new : Descriptor) : State :=
  { s with versions := skeep (fun n => !(hasSlot new n) || hasSlot old n) s.versions }

/-- The regions of a descriptor given to its partition; those it has already are left alone. -/
def giveRegions (d : Descriptor) (s : State) : State :=
  d.regions.foldl (fun s k =>
    let new : Region := { pid := d.partid.val, enc := d.encRegions.contains k }
    match sget none (s.die (k / 128)).regions (k % 128) with
    | some _ => s.setDie (k / 128) { s.die (k / 128) with regions := sset none (s.die (k / 128)).regions (k % 128) (some new) }
    | none => s.giveRegion k (some new)) s

/-- PARTITION_CREATE (R444): nothing happens while the device awaits its firmware, or when the descriptor clashes. -/
def partitionCreate (d : Descriptor) (s : State) : State :=
  let pid := d.partid.val
  if s.firmware = false ∨ (s.part pid).present = true ∨ descOk s d = false then s
  else
    let s := s.setPart pid { Partition.reset with present := true, desc := d, wmask := d.wmask, otbase := d.otbase &&& csrMask 0x052,
                                                   asleep := true }
    let s := (giveRegions d s).giveSlots Descriptor.zero d
    let s := (descClusters d).foldl State.joinCluster s
    let s := initFrames pid (initTable pid s)
    ({ s with m1 := extendMeas s.m1 (descDigest d) } : State).newLayout

/-- Everything on a die that is a partition's alone. -/
def Die.dropPart (d : Die) (pid : Nat) : Die :=
  { d with ret := sclear (8 * pid) (8 * pid + 8) d.ret, lq := sset LinkQueue.reset d.lq pid LinkQueue.reset,
           shadow := if d.shadow = some pid then none else d.shadow }

/-- A partition destroyed: its clusters and regions go. -/
def partitionDestroy (pid : Nat) (s : State) : State :=
  let own := s.regionsOf pid
  let s := ((List.range 32).filter fun c => decide (s.pidOfCluster c = some pid)).foldl State.resetCluster s
  let s := own.foldl (fun s k => s.giveRegion k none) s
  let s := [0, 1].foldl (fun s n => s.setDie n ((s.die n).dropPart pid)) s
  (s.setPart pid Partition.reset).newLayout

/-- Two lists name the same things. -/
def sameSet (a b : List Nat) : Bool := (a.all fun k => b.contains k) && b.all fun k => a.contains k

/-- Two descriptors place a partition alike: a change from one to the other is no layout change (R453). -/
def samePlace (a b : Descriptor) : Bool :=
  decide (a.clusters = b.clusters) && sameSet a.regions b.regions && sameSet a.encRegions b.encRegions

/-- PARTITION_CHANGE (R444). Only a change of clusters, regions or way mask is a layout change (R453). -/
def partitionChange (d : Descriptor) (destroy : Bool) (s : State) : State :=
  let pid := d.partid.val
  let p := s.part pid
  if p.present = false then s
  else if destroy then partitionDestroy pid s
  else if descOk s d = false then s
  else
    let held := (List.range 32).filter fun c => decide (s.pidOfCluster c = some pid)
    let s := (held.filter fun c => !((descClusters d).contains c)).foldl State.resetCluster s
    let s := ((s.regionsOf pid).filter fun k => !(d.regions.contains k)).foldl (fun s k => s.giveRegion k none) s
    let s := (giveRegions d s).giveSlots p.desc d
    let s := s.setPart pid { s.part pid with desc := d, wmask := d.wmask }
    let s := if p.onDies then ((descClusters d).filter fun c => !(held.contains c)).foldl State.joinCluster s else s
    if samePlace p.desc d && decide (p.wmask = d.wmask) then s else s.newLayout

/-! Swaps (R447, R448). -/

/-- A strand stopped at an instruction boundary: a parked instruction is withdrawn and issues again (R23), and so does a REP between
repetitions (R73, R106). -/
def Strand.stopped (t : Strand) : Strand :=
  let t := { t.commitAll with rep := none }
  match t.status with
  | .parked => { t with wait := .retry }
  | .reaping => { t with wait := .retry }
  | _ => t

/-- The matrix engine of a core completes what it holds (R282). -/
def drainMq (core fuel : Nat) (s : State) : State :=
  match fuel with
  | 0 => s
  | k + 1 => if (s.core core).mq = [] then s else drainMq core k (matTick core { s with cycle := s.cycle + 1 })

/-- A queue of copies stops: the head in flight is recorded with CAUSE 0 and VALID 0, and starts again later (R327). -/
def CopyQueue.stopHead (q : CopyQueue) (n : Nat) : CopyQueue :=
  match q.halted, q.ops with
  | false, o :: rest =>
    if o.started then { q with ops := { o with started := false } :: rest, record := faultRecord o n 0 0 false none 0 } else q
  | _, _ => q

/-- Before a copy in flight is recorded, its barrier receives what it has delivered (R314). -/
def State.stopQueue (s : State) (core q : Nat) : State :=
  let c := s.copyQueue core q
  match c.halted, c.ops with
  | false, o :: _ => if o.started then s.subtract core q o else s
  | _, _ => s

/-- A core stops: matrix operations complete, copies stop, g writes arrive. -/
def State.stopCore (s : State) (core : Nat) : State :=
  let now := s.cycle
  let s := drainMq core 20000 s
  let s := ({ s with cycle := now + 4 } : State).commitG core
  let s : State := { s with cycle := now }
  let s := [0, 1, 2, 3].foldl (fun s q => s.stopQueue core q) s
  let k := s.core core
  s.setCore core { k with cq := k.cq.map fun e => (e.1, e.2.stopHead e.1) }

/-- The link queue of a partition on a die stops. -/
def State.stopLink (s : State) (pid die : Nat) : State :=
  let q := s.lq die pid
  match q.halted, q.ops with
  | false, o :: rest =>
    let o := { o with sent := false, own := [], before := [] }
    if o.started then
      s.setLq die pid { q with ops := { o with started := false } :: rest, record := clearValid (linkRecord s o 0 0 0 0) }
    else s.setLq die pid { q with ops := o :: rest }
  | _, _ => s

/-- The clusters that a partition holds. -/
def heldClusters (s : State) (pid : Nat) : List Nat := (List.range 32).filter fun c => decide (s.pidOfCluster c = some pid)

/-- A pass of the KMU stops between pages: one that is fetched or not yet delivered to every core is fetched again (R379). -/
def Pass.stopped (_p : Pass) : Pass := { page := none, fetched := none, cause := 0, cores := [] }

/-- Every posted access of a partition is performed at FABRIC (R424): its packets are acknowledged within the step (log 83), the OFREEs and
completion words that waited for them complete. -/
def State.performAll (s : State) (pid : Nat) (ns : List Nat) : State :=
  let s := (ns.foldl State.finishParts s).dropPosted pid
  let s := ns.foldl (fun s n => ofreeTick n s) s
  let ws := (s.part pid).cwords
  (ws.foldl (fun s w => s.putCword pid w.1 w.2) (s.setPart pid { s.part pid with cwords := [] })).dropPosted pid

/-- Step 1 of R447. -/
def State.stopPartition (s : State) (pid : Nat) : State :=
  let cls := heldClusters s pid
  let cores := cls.flatMap fun c => (List.range 8).map (8 * c + ·)
  let ns := cores.flatMap fun c => (List.range 16).map (16 * c + ·)
  let s := cores.foldl State.stopCore s
  let s := [0, 1].foldl (fun s n => s.stopLink pid n) s
  let s := s.performAll pid ns
  let s := ns.foldl (fun s n =>
    let s := s.withdraw n
    s.setStrand n (s.strand n).stopped) s
  let s := cls.foldl (fun s c => s.setCluster c { s.cluster c with pass := (s.cluster c).pass.map Pass.stopped }) s
  cores.foldl (fun s c => s.l1Release c pid) s

/-- Entries whose key satisfies the test. -/
def pickKeys {α : Type} (f : Nat → Bool) (m : Sparse α) : Sparse α := m.filter fun e => f e.1

/-- The cores that a partition holds on a die, in ascending position. -/
def coresOn (s : State) (pid die : Nat) : List Nat :=
  ((heldClusters s pid).filter fun c => decide (c / 16 = die)).flatMap fun c => (List.range 8).map (8 * c + ·)

/-- What a swap saves (R447, steps 2 and 3). Caches are not saved. The first 64 cores of a die go to its shadow storage, the others to
SAVEBASE (R448); but for the scratchpad no layout is stated, and the state stays data (log 50). -/
def State.image (s : State) (pid : Nat) : Saved :=
  let mine (c : Nat) : Bool := decide (s.pidOfCluster c = some pid)
  let win := s.inWindow fun k => mine (k / 8)
  { held := heldClusters s pid, moved := [], bulk := [0, 1].flatMap fun d => (coresOn s pid d).drop 64,
    strands := pickKeys (fun n => mine (clusterOf n)) s.strands,
    cores := ((pickKeys (fun n => mine (n / 8)) s.cores).map fun e =>
      (e.1, { e.2 with l1 := [], rcache := [], csrOld := [], tlb := [], objc := [] })).filter fun e => decide (e.2 ≠ Core.reset),
    clusters := ((pickKeys mine s.clusters).map fun e => (e.1, { e.2 with tlb := [] })).filter fun e => decide (e.2 ≠ Cluster.reset)
    mem := pickKeys win s.mem, tags := pickKeys (fun a => win (64 * a)) s.tags,
    fe := pickKeys (fun a => win (8 * a)) s.fe }

/-- Saved entries put back. -/
def putBack {α : Type} [DecidableEq α] (d : α) (m saved : Sparse α) : Sparse α := saved.foldl (fun m e => sset d m e.1 e.2) m

/-! Step 3 of R447: the scratchpad at SAVEBASE. The core at position j of the clusters held has the bytes and tags of its window at SAVEBASE + j
MiB, and, beyond all of these, the F and W bits of its words at j × 32 KiB, four words to a byte (log 50). -/

/-- The window of a core. -/
def State.windowBase (s : State) (core : Nat) : Nat :=
  s.cardNo * 2 ^ 47 + core / 128 * 2 ^ 46 + 0x3F0000000000 + core % 128 * 2 ^ 20

/-- The entries of `[lo, hi)` at `dest` instead of `lo`. -/
def shiftKeys {α : Type} (lo hi dest : Nat) (m : Sparse α) : Sparse α :=
  (pickKeys (fun k => decide (lo ≤ k) && decide (k < hi)) m).map fun e => (e.1 - lo + dest, e.2)

/-- SAVEBASE of a partition. -/
def saveBase (p : Partition) : Nat := p.desc.savebase.toNat / 2 ^ 20 * 2 ^ 20

/-- The cores of the clusters that a partition held, with their positions. -/
def Saved.positions (v : Saved) : List (Nat × Nat) :=
  let cores := v.held.flatMap fun c => (List.range 8).map (8 * c + ·)
  cores.zip (List.range cores.length)

/-- F and W bits of the words from `lo` on as bytes from `dest` on. -/
def packFe (lo dest : Nat) (fe : Sparse (BitVec 2)) : Sparse Byte :=
  fe.foldl (fun m e =>
    let k := dest + (e.1 - lo) / 4
    sset memDefault m k (sget memDefault m k ||| BitVec.ofNat 8 (e.2.toNat * 4 ^ ((e.1 - lo) % 4)))) []

/-- F and W bits of the words from `lo` on, as bytes from `at_` on hold them. -/
def unpackFe (lo at_ : Nat) (m : Sparse Byte) : Sparse (BitVec 2) :=
  m.foldl (fun fe e => (List.range 4).foldl (fun fe j => sset 0 fe (lo + 4 * (e.1 - at_) + j) (BitVec.ofNat 2 (e.2.toNat / 4 ^ j))) fe) []

/-- The save area of one core is memory of this card: 1 MiB and 32 KiB. -/
def State.saveHome (s : State) (a b : Nat) : Bool :=
  match s.place a, s.place b with
  | .gddr _, .gddr _ => true
  | _, _ => false

/-- The scratchpad of one core moved to SAVEBASE. -/
def bulkOut (base n : Nat) (r : State × Saved) (e : Nat × Nat) : State × Saved :=
  let w := r.1.windowBase e.1
  let a := base + 2 ^ 20 * e.2
  let b := base + 2 ^ 20 * n + 2 ^ 15 * e.2
  if r.1.saveHome a b then
    let s := (r.1.noteRange a (a + 2 ^ 20)).noteRange b (b + 2 ^ 15)
    let mem := putBack memDefault (sclear b (b + 2 ^ 15) (sclear a (a + 2 ^ 20) s.mem)) (shiftKeys w (w + 2 ^ 20) a r.2.mem)
    ({ s with
        mem := putBack memDefault mem (packFe (w / 8) b (pickKeys (fun k => decide (w / 8 ≤ k) && decide (k < w / 8 + 2 ^ 17)) r.2.fe)),
        tags := putBack false (sclear (b / 64) (b / 64 + 2 ^ 9) (sclear (a / 64) (a / 64 + 2 ^ 14) s.tags))
          (shiftKeys (w / 64) (w / 64 + 2 ^ 14) (a / 64) r.2.tags) },
     { r.2 with mem := sclear w (w + 2 ^ 20) r.2.mem, tags := sclear (w / 64) (w / 64 + 2 ^ 14) r.2.tags,
                fe := sclear (w / 8) (w / 8 + 2 ^ 17) r.2.fe })
  else r

/-- The scratchpad of one core read back from SAVEBASE. -/
def bulkIn (base n : Nat) (s : State) (e : Nat × Nat) : State :=
  let w := s.windowBase e.1
  let a := base + 2 ^ 20 * e.2
  let b := base + 2 ^ 20 * n + 2 ^ 15 * e.2
  if s.saveHome a b then
    { s with mem := putBack memDefault s.mem (shiftKeys a (a + 2 ^ 20) w s.mem),
             tags := putBack false s.tags (shiftKeys (a / 64) (a / 64 + 2 ^ 14) (w / 64) s.tags),
             fe := putBack 0 s.fe (unpackFe (w / 8) b (pickKeys (fun k => decide (b ≤ k) && decide (k < b + 2 ^ 15)) s.mem)) }
  else s

/-- Step 3 of R447 on what step 2 has saved of a partition. -/
def State.moveBulk (s : State) (pid : Nat) (v : Saved) : State × Saved :=
  v.positions.foldl (bulkOut (saveBase (s.part pid)) v.positions.length) (s, v)

/-- Step 3 undone for the cores that the partition still holds. -/
def State.readBulk (s : State) (pid : Nat) (v : Saved) : State :=
  (v.positions.filter fun e => (s.part pid).desc.clusters.getLsbD (e.1 / 8)).foldl (bulkIn (saveBase (s.part pid)) v.positions.length) s

/-- What was saved of the clusters that satisfy the test. -/
def Saved.only (v : Saved) (f : Nat → Bool) : Saved :=
  { v with strands := skeep (fun n => f (clusterOf n)) v.strands, cores := skeep (fun k => f (k / 8)) v.cores,
           clusters := skeep f v.clusters }

/-- What a swap saved put back where it was; an offline core's contexts hold no strand. -/
def State.restore (s : State) (v : Saved) : State :=
  let off (n : Nat) : Bool := s.offline (coreOf n)
  { s with strands := putBack Strand.reset s.strands (skeep (fun n => !(off n)) v.strands), cores := putBack Core.reset s.cores v.cores,
           clusters := putBack Cluster.reset s.clusters
             (v.clusters.map fun e => (e.1, { e.2 with coreoff := (s.cluster e.1).coreoff, coreoffNew := (s.cluster e.1).coreoffNew })),
           mem := putBack memDefault s.mem v.mem, tags := putBack false s.tags v.tags, fe := putBack 0 s.fe v.fe }

/-- What a swap saved, its part of a die moved to SAVEBASE. -/
def Saved.move (v : Saved) (die : Nat) : Saved := { v with moved := die :: v.moved }

/-- Shadow storage of a die takes the state of a partition, as far as it has cores there; that of an older one moves to its SAVEBASE first
(R447). -/
def State.takeShadow (s : State) (pid die : Nat) : State :=
  if coresOn s pid die = [] then s
  else
    let s := match (s.die die).shadow with
      | none => s
      | some q =>
        if q = pid then s
        else s.setPart q { s.part q with saved := (s.part q).saved.map fun v : Saved => v.move die }
    s.setDie die { s.die die with shadow := some pid }

/-- Shadow storage gives up the state of a partition. -/
def State.leaveShadow (s : State) (pid die : Nat) : State :=
  if (s.die die).shadow = some pid then s.setDie die { s.die die with shadow := none } else s

/-- PARTITION_SWAP_OUT. -/
def partitionSwapOut (pid : Nat) (s : State) : State :=
  if (s.part pid).present = false ∨ (s.part pid).run ≠ .running then s
  else
    let s := [0, 1].foldl (fun s d => s.takeShadow pid d) (s.stopPartition pid)
    let v := s.image pid
    let r := ((heldClusters s pid).foldl State.resetCluster s).moveBulk pid v
    r.1.setPart pid { r.1.part pid with run := .descheduled, saved := some r.2 }

/-- Offline masks last written come into force in a cluster. -/
def State.applyOffline (s : State) (cl : Nat) : State :=
  let c := s.cluster cl
  if c.coreoff = c.coreoffNew then s else (s.setCluster cl { c with coreoff := c.coreoffNew }).newLayout

/-- A cluster before a partition is swapped in: one that it held when it was swapped out is reset for what was saved; one that has joined it
since then joins now (R235, R445). -/
def State.readyCluster (held : List Nat) (s : State) (cl : Nat) : State :=
  if held.contains cl then (s.resetCluster cl).applyOffline cl else s.joinCluster cl

/-- PARTITION_SWAP_IN: the clusters must be free of another partition. Interrupt 0x03 tells the monitor (R455). -/
def partitionSwapIn (pid : Nat) (s : State) : State :=
  let p := s.part pid
  match p.run, p.saved with
  | .descheduled, some v =>
    if (descClusters p.desc).any fun c => (s.pidOfCluster c).isSome then s
    else
      let s := (descClusters p.desc).foldl (State.readyCluster v.held) s
      let s := (s.restore (v.only fun c => p.desc.clusters.getLsbD c)).readBulk pid v
      let s := [0, 1].foldl (fun s d => s.leaveShadow pid d) s
      (s.setPart pid { s.part pid with run := .running, saved := none }).interrupt pid 0x03
  | _, _ => s

/-- POWER_GATING: no layout change (R453). -/
def powerGating (pid : Nat) (on : Bool) (s : State) : State :=
  let p := s.part pid
  if on then
    if p.present = true ∧ p.run = .running then (s.stopPartition pid).setPart pid { (s.stopPartition pid).part pid with run := .gated } else s
  else if p.run = .gated then s.setPart pid { p with run := .running }
  else s

/-! Migration (R480). -/

/-- MIGSTAT written. -/
def State.migstat (s : State) (pid n : Nat) : State := s.setPart pid { s.part pid with migstat := n }

/-- MIGCMD 1. -/
def migcmdStop (pid : Nat) (pf : Bool) (s : State) : State :=
  let p := s.part pid
  if pf = false ∨ p.present = false then s
  else if p.paired.isSome then s.migstat pid 3
  else if p.run ≠ .running then s
  else
    let s := s.stopPartition pid
    (s.setPart pid { s.part pid with run := .halted }).migstat pid 2

/-- MIGCMD 2. -/
def migcmdSave (pid : Nat) (pf : Bool) (s : State) : State :=
  let p := s.part pid
  if pf = false ∨ p.run ≠ .halted then s
  else
    let s := [0, 1].foldl (fun s d => s.takeShadow pid d) s
    (s.setPart pid { s.part pid with saved := some (s.image pid) }).migstat pid 2

/-- How the numbers and addresses of one partition become those of another: clusters by their place among those held, regions by theirs among
those assigned. -/
structure Relocation where
  pid : Nat
  /-- The clusters and the region addresses of the source and of the destination, in order. -/
  clusters : List (Nat × Nat)
  regions : List (Nat × Nat)
  /-- The windows of the cores. -/
  windows : List (Nat × Nat)

/-- The second of the pair whose first is given; itself where there is none. -/
def renamed (l : List (Nat × Nat)) (k : Nat) : Nat := ((l.find? fun e => decide (e.1 = k)).map (·.2)).getD k

/-- A cluster. -/
def Relocation.cluster (r : Relocation) (cl : Nat) : Nat := renamed r.clusters cl
/-- A core. -/
def Relocation.core (r : Relocation) (k : Nat) : Nat := 8 * r.cluster (k / 8) + k % 8
/-- A strand. -/
def Relocation.strand (r : Relocation) (n : Nat) : Nat := 128 * r.cluster (n / 128) + n % 128
/-- A physical address. -/
def Relocation.address (r : Relocation) (pa : Nat) : Nat :=
  match r.windows.find? fun e => decide (e.1 = pa / 2 ^ 20 * 2 ^ 20) with
  | some e => e.2 + pa % 2 ^ 20
  | none => renamed r.regions (pa / 2 ^ 30 * 2 ^ 30) + pa % 2 ^ 30

/-- The keys of a table renamed. -/
def rekey {α : Type} [DecidableEq α] (d : α) (f : Nat → Nat) (m : Sparse α) : Sparse α := putBack d [] (m.map fun e => (f e.1, e.2))

/-- A strand of the source as the destination's. -/
def Relocation.onStrand (r : Relocation) (t : Strand) : Strand :=
  { t with task := t.task.map fun k => { k with cluster := r.cluster k.cluster } }

/-- A core. -/
def Relocation.onCore (r : Relocation) (k : Core) : Core :=
  let op (o : CopyOp) : CopyOp :=
    { o with strand := r.strand o.strand, auxPa := r.address o.auxPa, old := rekey none r.address o.old }
  { k with locks := k.locks.map fun e => (e.1, e.2.map fun l => { l with holder := r.strand l.holder }),
           cq := k.cq.map fun e => (e.1, { e.2 with ops := e.2.ops.map op }) }

/-- A launch record. -/
def Relocation.onLaunch (r : Relocation) (l : Launch) : Launch :=
  { l with
    source := match l.source with
      | .task head => .task (r.strand head)
      | .host _ record cwAddr cwVal => .host r.pid (r.address record) cwAddr cwVal
    queues := l.queues.map fun q => (r.cluster q.1, q.2) }

/-- A cluster. -/
def Relocation.onCluster (r : Relocation) (c : Cluster) : Cluster :=
  { c with launches := c.launches.map fun e => (e.1, e.2.map r.onLaunch), order := c.order.map fun o => (r.cluster o.1, o.2),
           kv := c.kv.map fun e => (e.1, { e.2 with owner := r.strand e.2.owner }),
           merge := c.merge.map fun e => (e.1, { e.2 with senders := e.2.senders.map r.strand }) }

/-- Saved state of the source as the destination's. -/
def Relocation.onSaved (r : Relocation) (v : Saved) : Saved :=
  { v with held := v.held.map r.cluster, moved := [], bulk := v.bulk.map r.core,
           strands := rekey Strand.reset r.strand (v.strands.map fun e => (e.1, r.onStrand e.2)),
           cores := rekey Core.reset r.core (v.cores.map fun e => (e.1, r.onCore e.2)),
           clusters := rekey Cluster.reset r.cluster (v.clusters.map fun e => (e.1, r.onCluster e.2)),
           mem := rekey memDefault r.address v.mem, tags := rekey false (fun k => r.address (64 * k) / 64) v.tags,
           fe := rekey 0 (fun k => r.address (8 * k) / 8) v.fe }

/-- From one partition of this card to another. -/
def State.relocation (s : State) (src dst : Nat) : Relocation :=
  let cls := (descClusters (s.part src).desc).zip (descClusters (s.part dst).desc)
  { pid := dst, clusters := cls, regions := ((s.regionsOf src).map s.regionBase).zip ((s.regionsOf dst).map s.regionBase),
    windows := cls.flatMap fun e => (List.range 8).map fun k => (s.windowBase (8 * e.1 + k), s.windowBase (8 * e.2 + k)) }

/-- The state that the physical function has read through the alias of the partition that it migrates from; without one, what the destination
holds itself. -/
def State.migrated (s : State) (pid : Nat) (source : Option (Fin 16)) : Option Saved :=
  match source with
  | none => (s.part pid).saved
  | some q => if (s.part q).run = .halted then (s.part q).saved.map (s.relocation q pid).onSaved else none

/-- MIGCMD 3: the state is loaded; a destination of different geometry is refused, and a terminated partition runs no more (R399). Where there is
no state of this card to load, nothing is loaded (DESIGN CHOICE, log 101). -/
def migcmdRestore (pid : Nat) (pf : Bool) (l : MigLoad) (s : State) : State :=
  let p := s.part pid
  if pf = false ∨ p.present = false ∨ p.run = .terminated then s
  else if l.sameGeometry = false ∨ p.paired.isSome = true then s.migstat pid 3
  else match s.migrated pid l.source with
    | none => s.migstat pid 2
    | some v =>
      if p.onDies = false then s
      else
        let s := (heldClusters s pid).foldl State.resetCluster s
        let s := [0, 1].foldl (fun s d => s.leaveShadow pid d) (s.restore v)
        (s.setPart pid { s.part pid with run := .halted, saved := none }).migstat pid 2

/-- MIGCMD 4. -/
def migcmdResume (pid : Nat) (pf : Bool) (s : State) : State :=
  let p := s.part pid
  if pf = false ∨ p.run ≠ .halted then s
  else
    let s := [0, 1].foldl (fun s d => s.leaveShadow pid d) s
    (s.setPart pid { p with run := .running, saved := none }).migstat pid 2

/-! Measurements, evidence and keys (R452 to R454). -/

/-- FIRMWARE_DOWNLOAD: an image that fails its check is discarded and reported. -/
def firmwareDownload (digest : BitVec 512) (s : State) : State :=
  if s.firmware then s
  else if Config.firmwareGenuine digest then { s with firmware := true, m0 := extendMeas s.m0 digest }
  else { s with outbox := s.outbox ++ [Reply.firmwareRefused] }

/-- POWER_ON_RESET: State.reset with the next layout epoch that Thimble draws; the package keeps the GDDR7 that it has (R2). -/
def powerOnReset (s : State) : State :=
  { State.reset with epoch := Config.epochAtPowerOn (s.powerOns + 1), powerOns := s.powerOns + 1, dieGiB := s.dieGiB, freeCtr := s.freeCtr,
                     agenda := s.agenda }

/-- MEASUREMENT_EXTEND. -/
def measurementExtend (pid index : Nat) (digest : BitVec 512) (s : State) : State :=
  let p := s.part pid
  if p.present then s.setPart pid { p with meas := p.meas.set index (extendMeas (p.meas.getD index 0) digest) } else s

/-- The placement words of a partition: word 0, its regions as one bit each, its way mask. -/
def placement (s : State) (e : Nat × Partition) : List Byte :=
  leBytes 8 ((descWords e.2.desc).headD 0) ++ leBytes 32 ((s.regionsOf e.1).foldl (fun n k => n + 2 ^ k) 0) ++ leBytes 2 e.2.wmask.toNat

/-- The layout digest (R453). -/
def State.layoutDigest (s : State) : BitVec 512 := Config.sha3_512 ((s.parts.filter fun e => e.2.present).flatMap (placement s))

/-- RUNSTATE. -/
def RunState.code (r : RunState) : Nat :=
  match r with
  | .running => 0
  | .halted => 0
  | .descheduled => 1
  | .gated => 2
  | .terminated => 3

/-- Bytes 0 to 591 of a partition's evidence (Table 21.7). -/
def State.evidenceBody (s : State) (pid : Nat) : List Byte :=
  let p := s.part pid
  [BitVec.ofNat 8 pid, BitVec.ofNat 8 p.run.code] ++ leBytes 6 0 ++ leBytes 8 s.epoch.toNat ++ leBytes 64 p.nonce.toNat
    ++ leBytes 64 s.layoutDigest.toNat ++ leBytes 64 s.m0.toNat ++ leBytes 64 s.m1.toNat
    ++ p.meas.flatMap (fun m => leBytes 64 m.toNat) ++ leBytes 64 (Config.encapsulationKeyDigest s.powerOns).toNat

/-- The evidence of a partition under the nonce that it holds: its signed bytes and the signature. -/
def State.evidence (s : State) (pid : Nat) : List Byte × BitVec 37016 :=
  (s.evidenceBody pid, Config.evidenceSignature (Config.sha3_512 (s.evidenceBody pid)))

/-- A nonce written: the EVID window holds the evidence under it. -/
def State.putNonce (s : State) (pid : Nat) (nonce : BitVec 512) : State :=
  let s := s.setPart pid { s.part pid with nonce := nonce }
  let e := s.evidence pid
  s.setPart pid { s.part pid with evid := e.1 ++ leBytes 4627 e.2.toNat }

/-- EVIDENCE_REQUEST. -/
def evidenceRequest (pid : Nat) (nonce : BitVec 512) (s : State) : State :=
  if (s.part pid).present then
    let s := s.putNonce pid nonce
    let e := s.evidence pid
    { s with outbox := s.outbox ++ [Reply.evidence pid e.1 e.2] }
  else s

/-- KEY_IMPORT: its status, and with status 0 the new keys. -/
def keyImport (pid : Nat) (epoch : Word) (request : Nat) (s : State) : State :=
  let p := s.part pid
  let done (s : State) (p : Partition) (n : Nat) : State :=
    { s.setPart pid { p with keyImp := sset 0 p.keyImp 0 (BitVec.ofNat 64 n) } with outbox := s.outbox ++ [Reply.keyStatus pid n] }
  if epoch ≠ s.epoch then done s p 1
  else match Config.unwrapKeys s.powerOns request with
    | none => done s p 2
    | some (k, m) => if p.present then done s { p with dataKey := k, macKey := m } 0 else done s p 3

/-! Thermal and power (R455, R456). -/

/-- The partitions that exist. -/
def State.partIds (s : State) : List Nat := (s.parts.filter fun e => e.2.present).map (·.1)

/-- The monitors of a cluster take their readings, which the spec does not fix (log 4). -/
def State.sample (s : State) (cl : Nat) : State := { s.fresh.2 with sense := sset 0 s.sense cl s.fresh.1 }

/-- THERMAL_NOTICE: interrupt 0x02 in every partition. -/
def thermalNotice (cl : Nat) (s : State) : State := s.partIds.foldl (fun s p => s.interrupt p 0x02) (s.sample cl)

/-- THERMAL_STOP: every partition ends as by UE, with cause of termination 4, and the clocks stop. -/
def thermalStop (cl : Nat) (s : State) : State :=
  let s := s.sample cl
  let s := s.partIds.foldl (fun s p => if (s.part p).run = .terminated then s else s.terminate p 4) s
  { s with clocksOff := true }

/-- POWER_LIMIT_STEP: a limit of 300 W to 550 W that the physical function sets, then one step of 100 MHz, up to 2.9 GHz, that keeps the average
package power within it; before the first limit there is none to keep within (log 9). -/
def powerLimitStep (limit : Option Nat) (watts : Nat) (s : State) : State :=
  let s := match limit with
    | some w => if 300 ≤ w ∧ w ≤ 550 then { s with powerLimit := w } else s
    | none => s
  if s.powerLimit = 0 ∨ watts ≤ s.powerLimit then { s with clock := min 29 (s.clock + 1) } else { s with clock := max 1 (s.clock - 1) }

end Sys2Proof.Machine
end

