-- ==== Sys2Proof/Machine/Fabric.lean ====
section
/-! DEFINITION. The fabric: host writes and reads (R422, R481), CXL.mem (R465), the administrative window (R464 to R467, R479, R485), the
Seam (R457 to R462) and what the peer card asks of this one (R461, R243, R438, R458). -/

namespace Sys2Proof.Machine

/-- A message goes out. -/
def State.send (s : State) (r : Reply) : State := { s with outbox := s.outbox ++ [r] }

/-- The lane of the Seam that carries a message (Table 22.1); none for what goes to the host. What one half tells the other beside the packets of
that table goes with the posted ones (log 20). -/
def Reply.lane (r : Reply) : Option Lane :=
  match r with
  | .hostData _ | .cxl _ | .msix _ _ | .evidence _ _ _ | .keyStatus _ _ | .dirtyWord _ _ | .firmwareRefused => none
  | .peerData _ _ | .peerFailed | .peerAck => some .completion
  | .peerRead _ | .peerAtomic _ _ _ _ _ => some .nonPosted
  | .peerWrite _ _ _ | .peerWriteCap _ _ | .peerInvalidate _ _ | .peerWake _ _ | .peerOfree _ _ | .peerEvent _ _ _ | .peerRegister _ _ _
  | .peerConvpool _ _ | .peerSweep _ | .chunk _ _ _ _ _ _ | .partnerHalt _ _ _ _ => some .posted

/-- A packet on lane `b` may be delivered before one on lane `a` that was sent earlier: R460 forbids it within a lane and to a non-posted packet
behind a posted one (log 20). -/
def Lane.passes (b a : Lane) : Bool := decide (b ≠ a) && !(decide (b = .nonPosted) && decide (a = .posted))

/-- The packets of a lane, in the order in which they are sent and delivered (R460). -/
def State.lane (s : State) (l : Lane) : List Reply := s.outbox.filter fun r => decide (Reply.lane r = some l)

/-- The partition to which an address of this card's GDDR7 is assigned; none elsewhere. -/
def State.homeOf (s : State) (pa : Nat) : Option Nat :=
  match s.place pa with
  | .gddr _ => (s.regionOf pa).map (·.pid)
  | _ => none

/-- An aligned write of `2 ^ size` bytes by a party outside the partition's strands, at its home slice: it carries no retention slot. A whole
granule takes the tag that comes with it (R29). -/
def outsideWrite (pa size v : Nat) (tag : Bool) (objid : Option Nat) (s : State) : State :=
  match s.homeOf pa with
  | none => s
  | some pid =>
    if pa % 2 ^ size ≠ 0 then s
    else
      let s := s.l2Request pid none pa (byteMask pa (2 ^ size)) false (objid.map fun o => { objid := o, whole := false })
      if tag && decide (size = 6) then s.storeCap pa { tag := true, bits := BitVec.ofNat 512 v }
      else s.store pa (2 ^ size) (v % 2 ^ (8 * 2 ^ size))

/-- The value that such a read finds, and the state after it. -/
def outsideRead (pa size : Nat) (integ : Option Integ) (s : State) : Option (State × Nat) :=
  match s.homeOf pa with
  | none => none
  | some pid => if pa % 2 ^ size ≠ 0 then none else some (s.l2Request pid none pa 0 false integ, s.load pa (2 ^ size))

/-- The physical address at an offset of a partition's regions in ascending order (R464, R465). -/
def State.regionAddress (s : State) (pid offset : Nat) : Option Nat :=
  if (s.part pid).present then ((s.regionsOf pid)[offset / 2 ^ 30]?).map fun k => s.regionBase k + offset % 2 ^ 30 else none

/-- The physical address that an offset of BAR2 names. -/
def State.barAddress (s : State) (p : BarPlace) : Option Nat := s.regionAddress p.pid p.offset

/-! The host. -/

/-- HOST_WRITE (R422), through BAR2 (R464); nothing is there beyond the partition's regions. -/
def hostWrite (p : BarPlace) (size : Fin 4) (v : Word) (s : State) : State :=
  match s.barAddress p with
  | some pa => outsideWrite pa size v.toNat false none s
  | none => s

/-- HOST_LINK_TRAIN (R463). -/
def hostLinkTrain (width rate : Nat) (cxl : Bool) (s : State) : State := { s with hostLink := some (width, rate, cxl) }

/-- HDMPART_APPLY (R465): no CXL.mem request is outstanding between two steps of the model. -/
def hdmpartApply (s : State) : State :=
  match s.hdmNext with
  | some v => { s with hdmpart := v, hdmNext := none }
  | none => s

/-- HDMPART_WRITE; through a virtual function it is ignored. -/
def hdmpartWrite (pf : Bool) (v : Word) (s : State) : State :=
  if pf then { s with hdmNext := some (v.setWidth 8 &&& 0x1F) } else s

/-- The link runs CXL 3.1. -/
def State.cxlMode (s : State) : Bool :=
  match s.hostLink with
  | some (_, _, c) => c
  | none => false

/-- The physical address at an offset of the host-managed device memory; none when nothing is exposed there. -/
def hdmAddress (s : State) (offset : Nat) : Option Nat :=
  let pid := s.hdmpart.toNat % 16
  if s.cxlMode && bitOf s.hdmpart.toNat 4 then s.regionAddress pid offset else none

/-- CXL_MEM_REQUEST: a doubleword. A write of HDMPART that came earlier is in effect. -/
def cxlMemRequest (offset : Nat) (write : Bool) (v : Word) (s : State) : State :=
  let s := hdmpartApply s
  match hdmAddress s offset with
  | none => s.send (.cxl none)
  | some pa =>
    if write then (outsideWrite pa 3 v.toNat false none s).send (.cxl (some 0))
    else match outsideRead pa 3 none s with
      | some r => r.1.send (.cxl (some (BitVec.ofNat 64 r.2)))
      | none => s.send (.cxl none)

/-! The administrative window. -/

/-- The partition exists. -/
def State.has (s : State) (pid : Nat) : Bool := (s.part pid).present

/-- MBCTL_WRITE: ignored while records are outstanding (R467). -/
def mbctlWrite (pid : Nat) (v : Word) (s : State) : State :=
  let p := s.part pid
  if s.has pid = false ∨ (bitOf p.mbctl.toNat 0 = true ∧ p.mbtail ≠ p.mbhead) then s
  else s.setPart pid { p with mbctl := v &&& 0x0000FFFFFFFFFF07 }

/-- MBTAIL_WRITE: one that would overrun the ring is ignored and logged (R466). -/
def mbtailWrite (pid : Nat) (v : Word) (s : State) : State :=
  let p := s.part pid
  let t : BitVec 16 := v.setWidth 16
  if s.has pid = false then s
  else if 2 ^ min 12 (p.mbctl.toNat / 2 ^ 8 % 16) < (t - p.mbhead).toNat then s.setPart pid { p with errlog := p.errlog + 1 }
  else s.setPart pid { p with mbtail := t }

/-- INTREQ. -/
def intreq (pid : Nat) (v : Word) (s : State) : State := if s.has pid && v.getLsbD 0 then s.interrupt pid 0x10 else s

/-- PAIRCTL_WRITE. -/
def pairctlWrite (pid : Nat) (pf : Bool) (v : Word) (s : State) : State :=
  if s.has pid && pf then s.setPart pid { s.part pid with pairctl := v.setWidth 8 &&& 0x1F } else s

/-- PAIRING (R458): both halves name each other and the Seam is up; a layout change. -/
def pairHalves (pid : Nat) (peerNames : Option (Fin 16)) (s : State) : State :=
  let p := s.part pid
  if s.has pid && bitOf p.pairctl.toNat 4 && decide (peerNames.map (·.val) = some pid) && decide (s.seam = .up) && p.paired.isNone then
    (s.setPart pid { p with paired := some (p.pairctl.toNat % 16) }).newLayout
  else s

/-- COREOFF_WRITE (R446): for the partition's own clusters; in force from its next creation or swap-in. -/
def coreoffWrite (pid : Nat) (pf : Bool) (index : Nat) (v : Byte) (s : State) : State :=
  if s.has pid && pf && (s.part pid).desc.clusters.getLsbD index then s.setCluster index { s.cluster index with coreoffNew := v } else s

/-- DIRTYCTL_WRITE: setting EN clears the bitmap. -/
def dirtyctlWrite (pid : Nat) (pf : Bool) (v : Word) (s : State) : State :=
  let p := s.part pid
  if s.has pid && pf then
    s.setPart pid { p with dirtyEn := v.getLsbD 0, dirty := if v.getLsbD 0 && !p.dirtyEn then [] else p.dirty }
  else s

/-- Bitmap word DIRTYIDX of a partition, and the state in which it has been cleared (R479). -/
def takeDirty (pid : Nat) (s : State) : State × Word :=
  let p := s.part pid
  let w := p.dirtyIdx.toNat
  (s.setPart pid { p with dirty := sclear (64 * w) (64 * w + 64) p.dirty },
   BitVec.ofNat 64 ((List.range 64).foldl (fun n k => n + (sget false p.dirty (64 * w + k)).toNat * 2 ^ k) 0))

/-- DIRTYDATA_READ: the word is returned and cleared; through a virtual function it reads zero. -/
def dirtydataRead (pid : Nat) (pf : Bool) (s : State) : State :=
  if s.has pid && pf then
    let r := takeDirty pid s
    r.1.send (.dirtyWord pid r.2)
  else s.send (.dirtyWord pid 0)

/-- EVENTS_CLEAR (R485): each bit written 1 clears with its count, and TCODE with TERM. -/
def eventsClear (pid : Nat) (v : Word) (s : State) : State :=
  let p := s.part pid
  let w0 := sget 0 p.ev 0 &&& ~~~(v &&& 0xF)
  let w0 := if v.getLsbD 3 then w0 &&& 0xFFFFFFFFFFFF00FF else w0
  let w3 := [0, 1, 2].foldl (fun w k => if v.getLsbD k then w &&& ~~~((0xFFFF : Word) <<< (16 * k)) else w) (sget 0 p.ev 3)
  if s.has pid then s.setPart pid { p with ev := sset 0 (sset 0 p.ev 0 w0) 3 w3 } else s

/-- ADMIN_REG_WRITE: DIRTYIDX, the NONCE bytes of the EVID window and the KEYIMP window are the writable registers that have no row of their own;
every other field ignores the write (R4, R464). -/
def adminRegWrite (pid : Nat) (pf : Bool) (offset : Nat) (v : Word) (s : State) : State :=
  if s.has pid = false then s
  else if pf && decide (offset = 0x0108) then s.setPart pid { s.part pid with dirtyIdx := v.setWidth 32 }
  else if 0x0410 ≤ offset ∧ offset < 0x0450 ∧ offset % 8 = 0 then
    let k := 8 * (offset - 0x0410)
    let n := (s.part pid).nonce.toNat
    s.putNonce pid (BitVec.ofNat 512 (n % 2 ^ k + v.toNat * 2 ^ k + n / 2 ^ (k + 64) * 2 ^ (k + 64)))
  else if 0x2400 ≤ offset ∧ offset < 0x3400 ∧ offset % 8 = 0 then
    s.setPart pid { s.part pid with keyImp := sset 0 (s.part pid).keyImp ((offset - 0x2400) / 8) v }
  else s

/-- FABID (Table 22.2): the card number, whether the Seam is up, whether the partition is paired, and the peer's PARTID. -/
def fabid (s : State) (pid : Nat) : Word :=
  let p := s.part pid
  BitVec.ofNat 64 (s.cardNo + (decide (s.seam = .up)).toNat * 2 + p.paired.isSome.toNat * 4 + p.paired.getD 0 % 16 * 16)

/-- Eight bytes of a list from a place on; what lies beyond its end reads zero. -/
def wordOf (bs : List Byte) (k : Nat) : Word :=
  BitVec.ofNat 64 ((List.range 8).foldl (fun n i => n + (bs.getD (k + i) 0).toNat * 2 ^ (8 * i)) 0)

/-- A doubleword of the administrative window (Table 22.2): a PF register through the virtual function, a WO register and every RSV offset read
zero (R4, R464). DIRTYDATA has an effect of its own. The places of values within ERRLOG, KEYIMP and SENSE are the model's (log 82). -/
def adminWord (s : State) (pid : Nat) (pf : Bool) (o : Nat) : Word :=
  let p := s.part pid
  let only (w : Word) : Word := if pf then w else 0
  if o = 0x0000 then fabid s pid
  else if o = 0x0008 then p.mbctl
  else if o = 0x0010 then p.mbtail.setWidth 64
  else if o = 0x0018 then p.mbhead.setWidth 64
  else if o = 0x0028 then only (p.pairctl.setWidth 64)
  else if o = 0x0038 then only ((s.hdmNext.getD s.hdmpart).setWidth 64)
  else if 0x0040 ≤ o ∧ o < 0x0060 then only (wordOf ((List.range 32).map fun c => (s.cluster c).coreoffNew) (o - 0x0040))
  else if o = 0x0100 then only (flagWord p.dirtyEn)
  else if o = 0x0108 then only (p.dirtyIdx.setWidth 64)
  else if o = 0x0120 then only (BitVec.ofNat 64 p.migstat)
  else if 0x0400 ≤ o ∧ o < 0x2400 then wordOf p.evid (o - 0x0400)
  else if 0x2400 ≤ o ∧ o < 0x3400 then sget 0 p.keyImp ((o - 0x2400) / 8)
  else if o = 0x3800 then BitVec.ofNat 64 p.errlog
  else if o = 0x3808 then BitVec.ofNat 64 (s.die 0).errors
  else if o = 0x3810 then BitVec.ofNat 64 (s.die 1).errors
  else if 0x3C00 ≤ o ∧ o < 0x3C20 then sget 0 p.ev ((o - 0x3C00) / 8)
  else if 0x4000 ≤ o ∧ o < 0x4100 then sget 0 s.sense ((o - 0x4000) / 8)
  else if o = 0x4100 then BitVec.ofNat 64 s.powerLimit
  else 0

/-- A read of the administrative window; one of DIRTYDATA through the physical function also clears the word (R479), and one of a cluster's
SENSE word finds its monitors' reading of this moment (R456). One that is not aligned to its size, or names no partition, answers 0 (log 88). -/
def adminRead (pid : Nat) (pf : Bool) (offset size : Nat) (s : State) : State :=
  if s.has pid = false ∨ offset % 2 ^ size ≠ 0 ∨ 2 ^ 16 ≤ offset then s.send (.hostData 0)
  else
    let o := offset / 8 * 8
    let part (w : Word) : Word := BitVec.ofNat 64 (w.toNat / 2 ^ (8 * (offset - o)) % 2 ^ (8 * 2 ^ size))
    if o = 0x0110 then
      if pf then
        let r := takeDirty pid s
        r.1.send (.hostData (part r.2))
      else s.send (.hostData 0)
    else
      let s := if 0x4000 ≤ o ∧ o < 0x4100 then s.sample ((o - 0x4000) / 8) else s
      s.send (.hostData (part (adminWord s pid pf o)))

/-- HOST_READ (R481): every earlier host write has been performed. The layout of what MIGCMD 2 has saved is not stated, so that its doublewords
read as free values (R480, log 50). -/
def hostRead (place : ReadPlace) (size : Fin 4) (s : State) : State :=
  match place with
  | .window pid pf offset => adminRead pid pf offset size s
  | .saved pid _ =>
    let f := s.fresh
    if (s.part pid).saved.isSome then f.2.send (.hostData f.1) else s.send (.hostData 0)
  | .memory p =>
    match (s.barAddress p).bind fun pa => outsideRead pa size none s with
    | some r => r.1.send (.hostData (BitVec.ofNat 64 r.2))
    | none => s

/-! The Seam. -/

/-- SEAM_TRAIN (R457): the straps fix the card numbers; a card without a proper peer is card 0. A retrain keeps its number. -/
def seamTrain (trained strap peerStrap : Bool) (s : State) : State :=
  match s.seam with
  | .up => s
  | .retraining => if trained then { s with seam := .up, replays := 0 } else s
  | _ =>
    if trained && (strap != peerStrap) then { s with seam := .up, cards := strap, replays := 0 }
    else { s with seam := .untrained, cards := false }

/-- A packet from the peer card has crossed the Seam: the failed replays before it are no longer consecutive with those to come (R459). -/
def State.heard (s : State) : State := { s with replays := 0 }

/-- FLIT_REPLAY: a failed replay is counted up to the eight that start a retrain (R459). -/
def flitReplay (s : State) : State := if s.seam = .up then { s with replays := min 8 (s.replays + 1) } else s

/-- SEAM_RETRAIN. -/
def seamRetrain (s : State) : State := if s.seam = .up ∧ s.replays = 8 then { s with seam := .retraining, replays := 0 } else s

/-- A paired partition ends as the Seam goes down (R462). -/
def seamEnd (s : State) (pid : Nat) : State :=
  if (s.part pid).paired.isNone ∨ (s.part pid).run = .terminated then s
  else
    let s := s.terminate pid 2
    match s.monitor pid with
    | some m => s.postIn pid m (mkEvent 3 0 .link 0x20000 0)
    | none => s

/-- SEAM_DOWN: a retrain has failed. -/
def seamDown (s : State) : State :=
  if s.seam = .retraining then
    let s : State := { s with seam := .down, unacked := [] }
    s.partIds.foldl seamEnd s
  else s

/-! The peer card. -/

/-- PEER_STORE. -/
def peerStore (pa : Nat) (size : Fin 7) (v : PeerData) (s : State) : State :=
  if s.seam = .up ∧ (s.homeOf pa).isSome = true then
    (outsideWrite pa size v.bits.toNat v.tag (v.objid.map (·.toNat)) s.heard).send .peerAck
  else s

/-- PEER_LOAD: a table walk or an object-table read leaves the walk mark on its line (R458); a block that does not verify fails it (R451). -/
def peerLoad (pa : Nat) (r : PeerRead) (s : State) : State :=
  match s.homeOf pa with
  | none => s
  | some pid =>
    if s.seam ≠ .up then s
    else
      let s := s.heard
      let integ := r.objid.bind fun o => s.readInteg pid pa o.toNat (byteMask pa (2 ^ r.size.val))
      if r.objid.isSome ∧ integ = none then s.send .peerFailed
      else
        let s := if r.walk then s.walkReads pid [pa] else s
        match outsideRead pa r.size integ s with
        | some d => d.1.send (.peerData (BitVec.ofNat 512 d.2) (decide (r.size = 6) && sget false s.tags (pa / 64)))
        | none => s

/-- The operations of Table 7.2 in the order of their codes; none when nothing is written. -/
def amoOp (op w old v expected : Nat) : Option Nat :=
  let m := 2 ^ (8 * w)
  match op with
  | 0 => some ((old + v) % m)
  | 1 => some (old &&& v)
  | 2 => some (old ||| v)
  | 3 => some (old ^^^ v)
  | 4 => some (if signedOf (8 * w) old ≤ signedOf (8 * w) v then old else v)
  | 5 => some (if signedOf (8 * w) old ≤ signedOf (8 * w) v then v else old)
  | 6 => some (min old v)
  | 7 => some (max old v)
  | 8 => some v
  | 9 => if old = expected then some v else none
  | _ => some (fp32.op2 (fun p q => p.add q .rne) .rne old v).1

/-- The line of an address written back and invalidated in its home slice (R461). -/
def State.dropLine (s : State) (pid pa : Nat) : State :=
  match s.place pa with
  | .gddr n => s.setDie n (((s.die n).backLines pid (lineOf pa) (lineOf pa + 1)).onLines pid (lineOf pa) (lineOf pa + 1) lineDrop)
  | _ => s

/-- PEER_ATOMIC: at the memory controller, which verifies the block of a page with INTEG first; the pre-value goes back. -/
def peerAtomic (pa : Nat) (a : PeerAtom) (op : Fin 11) (operand expected : Word) (s : State) : State :=
  let w := if a.wide then 8 else 4
  match s.homeOf pa with
  | none => s
  | some pid =>
    if s.seam ≠ .up ∨ pa % w ≠ 0 ∨ (op.val = 10 ∧ a.wide = true) then s
    else if a.objid.any fun o => (s.readInteg pid pa o.toNat (byteMask pa w)).isNone then s.heard.send .peerFailed
    else
      let s := s.heard.dropLine pid pa
      let old := s.load pa w
      let s := match amoOp op w old (lowWord (8 * w) operand) (lowWord (8 * w) expected) with
        | some v => (match a.objid with
          | some o => s.ctrlWrites pid o.toNat pa w
          | none => s).store pa w v
        | none => s
      s.send (.peerData (BitVec.ofNat 512 old) false)

/-- PEER_ACKNOWLEDGE of a posted packet of strand `n`, or of 4,096 + PARTID. With the last one the SO accesses that wait for it are performed
(R414). -/
def peerAcknowledge (n : Nat) (s : State) : State :=
  let left := sget 0 s.unacked n - 1
  let s : State := { s.heard with unacked := sset 0 s.unacked n left }
  if left ≠ 0 then s
  else if n < 4096 then s.soNext n
  else (s.strands.map (·.1)).foldl (fun s m => if s.pidOf m = some (n - 4096) then s.soNext m else s) s

/-- PEER_WAKE: the wake of a strand of the named half (R243). It is kept for a half that is swapped out. -/
def peerWake (pid n : Nat) (s : State) : State :=
  let p := s.part pid
  if p.paired.isNone then s
  else
    let s := s.heard
    match p.onDies, p.saved with
    | false, some v =>
      let t := sget Strand.reset v.strands n
      let t := match t.status with
        | .free => t
        | .ended => t
        | .stopped => t
        | .asleep => { t with status := .running }
        | _ => { t with token := true }
      if (v.strands.any fun e => decide (e.1 = n)) then
        s.setPart pid { p with saved := some { v with strands := sset Strand.reset v.strands n t } }
      else s
    | _, _ => (s.wake (some pid) n).1

/-- PEER_OFREE_UPDATE: this card's object caches drop the entry; then it is acknowledged (R438). -/
def peerOfreeUpdate (pid objid : Nat) (s : State) : State :=
  if (s.part pid).paired.isSome then (s.heard.dropObject pid objid).send .peerAck else s

/-- What the caches of a partition on this card derived from its tables, dropped: they lie elsewhere now. -/
def State.dropTables (s : State) (pid : Nat) : State :=
  { s with cores := smapv Core.reset (fun k => { k with tlb := k.tlb.filter fun e => decide (e.pid ≠ pid),
                                                        objc := k.objc.filter fun e => decide (e.pid ≠ pid) }) s.cores,
           clusters := smapv Cluster.reset (fun c => { c with tlb := c.tlb.filter fun e => decide (e.pid ≠ pid) }) s.clusters }

/-- What the peer card has changed of what both halves hold, changed here as well (R434, R458). -/
def State.peerChanged (s : State) (pid : Nat) (c : PeerChange) : State :=
  let p := s.part pid
  match c with
  | .line pa => s.dropDerived (pa / 2 ^ 7)
  | .ptroot v => (s.setPart pid { p with desc := { p.desc with ptroot := v } }).dropTables pid
  | .otbase v => (s.setPart pid { p with otbase := v &&& csrMask 0x052 }).dropTables pid
  | .mtbase v => (s.setPart pid { p with mtbase := v &&& csrMask 0x051 }).onClusters pid fun c => { c with mcache := [] }
  | .convpool tag bits => s.setPart pid { p with convpool := { tag := tag, bits := bits } }

/-- PEER_INVALIDATION: what this card derived from the line, or holds of the register, follows; then it is acknowledged (R434, R458). -/
def peerInvalidation (pid : Nat) (c : PeerChange) (s : State) : State :=
  if (s.part pid).paired.isSome then (s.heard.peerChanged pid c).send .peerAck else s

end Sys2Proof.Machine
end

