-- ==== Sys2Proof/Machine/Events.lean ====
section
/-! DEFINITION. Steps of the die's other agents: the register cache (R247, R248), request windows (R383), slices, walks and
memory controllers (R391, R431, R451), errors (R397 to R399), and restarts of a context (R221). -/

namespace Sys2Proof.Machine

/-! The register cache (R247, R248). -/

/-- A line of a context is fetched, or becomes the most recently used; a context without a strand fetches nothing. -/
def rcacheFill (n line : Nat) (s : State) : State := if (s.strand n).gone then s else s.bringLine n (line % 64) true false

/-- The v registers of a core that its register cache may drop. -/
def droppable (s : State) (core : Nat) : List (Nat × RegRef) :=
  ((List.range 16).map (16 * core + ·)).flatMap fun n =>
    let t := s.strand n
    if t.ties = [] then [] else
      ((List.range 32).filter fun v => t.mayDrop (rv v) && !(t.isDropped (rv v))).map fun v => (n, rv v)

/-- The register cache drops a tied v register, or none, as it pleases (R211, log 4). -/
def dropTick (core : Nat) (s : State) : State :=
  let ds := droppable s core
  if ds = [] then s
  else
    let i := Config.freeChoice s.freeCtr ds.length % (ds.length + 1)
    let s := { s with freeCtr := s.freeCtr + 1 }
    match ds[i]? with
    | some (n, r) => s.drop n r
    | none => s

/-- A strand that can come to a trap now: it holds a strand, is not Stopped or inside an MMA, and is not held (R245). -/
def Strand.takesTraps (t : Strand) : Bool :=
  !t.hold && match t.status with
    | .free => false
    | .ended => false
    | .stopped => false
    | .inMma => false
    | _ => true

/-- RECIPE_REPLAY: a dropped register of a strand is rebuilt; a failing replay is the strand's REPLAY trap. A held strand, and one that
executes nothing, replays nothing (R245). -/
def recipeReplay (n : Nat) (r : RegRef) (s : State) : State :=
  let c := s.cur
  let s1 : State := { s with cur := n }
  if (s.strand n).takesTraps = false then s
  else match rebuild r s1 with
  | .ok s2 => { s2 with cur := c }
  | .error (.trap t) => { (s1.retract n).faultMe t with cur := c }
  | .error _ => s

/-! Traps and timeouts from outside the strand. -/

/-- TRAP_ENTRY: a strand that is not Free, Ended, Stopped or inside an MMA, and not held, enters its handler with a cause of Table 7.7; no
other code is ever raised (R216). BSKIP is over for its instruction (R223). -/
def trapEntry (n : Nat) (code : BitVec 8) (tval tcap : Word) (s : State) : State :=
  if (s.strand n).takesTraps && causeCodes.contains code then
    (s.retract n).enterTrap n (fun u => { u with bskip := false }) false code tval tcap (s.strand n).addr
  else s

/-- SYNC_TIMEOUT (R203). -/
def syncTimeout (n : Nat) (s : State) : State :=
  match s.cores.findSome? fun e =>
      (e.2.reqs.find? fun r => decide (r.strand = n) && decide (r.due ≤ s.cycle)).map fun r => (e.1, r) with
  | some (core, r) => (s.timeoutReq core r).settleWord r.pa
  | none => s

/-- LOCKHOLD (R265). -/
def lockhold (core bank : Nat) (s : State) : State :=
  match (s.core core).lockOf bank with
  | some l => if 256 ≤ l.count then (s.unlock core bank).post l.holder (mkEvent 4 0 .lockhold (BitVec.ofNat 64 bank) 0) else s
  | none => s

/-- The parked instruction of a strand is tried again with a body; nothing changes when it still waits. -/
def retryWith (n : Nat) (b : Body) (s : State) : State :=
  let t := s.strand n
  match issue b { s.setStrand n { t with status := .running } with cur := n, stalled := false } with
  | .next u => if u.stalled || decide ((u.strand n).wait = t.wait ∧ (u.strand n).waiting = true) then s
    else { u with cur := s.cur, stalled := s.stalled }
  | _ => s

/-- BANKFMT_APPLY (R260): a BANKFMT that waits for its bank to drain. -/
def bankfmtApply (n : Nat) (s : State) : State :=
  let t := s.strand n
  match t.status, t.hold, t.wait with
  | .parked, false, .bankfmt a => retryWith n (bodyBankfmt a) s
  | _, _, _ => s

/-- The OFREE at which a strand stands. -/
def ofreeAt (s : State) (n : Nat) : Option RArgs :=
  match fetchAt { s with cur := n } (s.strand n).pc with
  | .error _ => none
  | .ok h => match decodeFetched h.1 with
    | .ok (.whole (.ofree a), _) => some a
    | _ => none

/-- OFREE_COMMIT (R438): an OFREE that waits for the accesses to its object. -/
def ofreeCommit (n : Nat) (s : State) : State :=
  let t := s.strand n
  match t.status, t.hold, t.wait, ofreeAt s n with
  | .parked, _, .ofreePeer _ _, _ => ofreeTick n s
  | .parked, false, _, some a => retryWith n (bodyOfree a) s
  | _, _, _, _ => s

/-- CONTEXT_RESTART (R221): a Stopped strand of a partition that runs goes on where it stopped. -/
def contextRestart (n : Nat) (s : State) : State :=
  let t := s.strand n
  match s.pidOf n with
  | some pid =>
    if t.status = .stopped ∧ (s.part pid).run = .running then
      s.setStrand n { t with status := .running, wait := .none, nextIssue := max t.nextIssue (s.cycle + 1) }
    else s
  | none => s

/-! Core configuration from outside a strand. -/

/-- SLOTMODE_WRITE. -/
def slotmodeWrite (core : Nat) (v : Word) (s : State) : State := s.setCore core ((s.core core).writeSlotmode s.cycle v)
/-- SLOTMODE_SWITCH. -/
def slotmodeSwitch (core : Nat) (s : State) : State := s.setCore core ((s.core core).slotSwitch s.cycle)
/-- L1CFG_WRITE: a change of NB waits (R253). -/
def l1cfgWrite (core : Nat) (v : Word) (s : State) : State :=
  let nb : BitVec 2 := v.setWidth 2
  if nb = 3 ∨ nb = (s.core core).nb then s else s.setCore core { s.core core with l1cfgNext := some nb }
/-- L1CFG_RECONFIGURE. -/
def l1cfgReconfigure (core : Nat) (s : State) : State :=
  match (s.core core).l1cfgNext with
  | some nb => if addressed s core (changesRole (s.core core).nb nb) then s else s.reconfigure core nb
  | none => s

/-- LINK_ARRIVAL. -/
def linkArrival (core dir : Nat) (s : State) : State :=
  if linksMove s (core / 8) && linkReady s core dir then linkApply core dir s else s

/-- TASK_START of the launch in a slot. -/
def taskStartIn (target slot n : Nat) (s : State) : State :=
  match serving s target with
  | some (o, _, _, _) => if o.2 = slot then taskStart target n s else s
  | none => s

/-! Slices, walks, windows, memory controllers. -/

/-- WINDOW_ADJUST (R383). -/
def windowAdjust (core : Nat) (marked : Bool) (s : State) : State :=
  let k := s.core core
  if marked then s.setCore core { k with window := max 8 (k.window / 2), winRun := 0 }
  else if k.winRun + 1 = 256 then s.setCore core { k with window := min 256 (k.window + 1), winRun := 0 }
  else s.setCore core { k with winRun := k.winRun + 1 }

/-- L2_SLICE_REQUEST (R391) for the line of an address, whole where it writes; the page that maps the address gives the evict-first mark. -/
def l2SliceRequest (pid va pa : Nat) (write : Bool) (s : State) : State :=
  let ef := match translate s (some pid) va useRead with
    | .ok (l, _) => bitOf l.entry 5
    | .error _ => false
  s.l2Request pid (some va) pa (if write then BitVec.allOnes 128 else 0) ef none

/-- PAGE_TABLE_WALK (R431, R433). -/
def pageTableWalk (pid va : Nat) (write : Bool) (s : State) : State :=
  match translate s (some pid) va (if write then useWrite else useRead) with
  | .ok (l, _) => s.touchLeaf .walker pid va l write
  | .error e => s.walkReads pid e.path

/-- A dirty line as a write of its block to GDDR7, where its page has INTEG. -/
def L2Line.asWrite (l : L2Line) : Option GddrWrite :=
  if l.dirty = 0 then none else l.integ.map fun o => { pid := l.pid, line := l.line, bytes := l.dirty, objid := o }

/-- GDDR7_BLOCK_WRITE (R451): what waits at the memory controller for the block that holds an address, or is dirty of it in its home slices, is
written, with the block's MAC. A request of a page without INTEG, and a block with nothing to write, leave no MAC. -/
def gddrWrite (pid pa : Nat) (s : State) : State :=
  match s.place pa with
  | .gddr n =>
    let d := s.die n
    let mine (l : Nat) : Bool := decide (l / 2 = lineOf pa / 2)
    match d.writes.find? fun w => decide (w.pid = pid) && mine w.line with
    | some w => (s.setDie n { d with writes := d.writes.erase w }).writeGddr n w
    | none =>
      match ([lineOf pa / 2 * 2, lineOf pa / 2 * 2 + 1].filterMap (d.lineOf pid)).filterMap L2Line.asWrite with
      | w :: _ => (s.setDie n (d.onLines pid w.line (w.line + 1) lineClean)).writeGddr n w
      | [] => s
  | _ => s

/-- GDDR7_BLOCK_READ (R451), of a page with INTEG: a block of the strand's partition that does not verify is INTEGRITY at its instruction. -/
def gddrRead (n pa objid : Nat) (reg : Nat) (s : State) : State :=
  match s.pidOf n with
  | none => s
  | some pid =>
    if decide (s.homeOf pa = some pid) && !(s.readSound pid pa objid (BitVec.allOnes 128)) then
      trapEntry n Cause.integrity.code (BitVec.ofNat 64 (pa / 256 * 256)) (BitVec.ofNat 64 reg) s
    else s

/-! Errors (R397 to R399). -/

/-- An error counted in a die's log. -/
def State.logError (s : State) (die : Nat) : State := s.setDie die { s.die die with errors := (s.die die).errors + 1 }

/-- SCRUB: a correctable error is corrected in place and counted. -/
def scrub (die : Nat) (correctable : Bool) (s : State) : State := if correctable then s.logError die else s

/-- The record of Table 17.4. -/
def ueRecord (e : UeArgs) : Word :=
  BitVec.ofNat 64 (e.array.val * 2 ^ 60 + e.die.val * 2 ^ 59 + e.cluster.val * 2 ^ 55 + e.core.val * 2 ^ 52 + e.index.toNat)

/-- The core of a per-core array's error, as STRID / 16, and its cluster. -/
def ueCore (e : UeArgs) : Nat := e.die.val * 128 + e.cluster.val * 8 + e.core.val
/-- The cluster. -/
def ueCluster (e : UeArgs) : Nat := e.die.val * 16 + e.cluster.val

/-- The physical address that an error's index names. -/
def ueAddress (s : State) (e : UeArgs) : Nat := s.cardNo * 2 ^ 47 + e.die.val * 2 ^ 46 + e.index.toNat

/-- The L2 line that an error strikes, whichever partition owns it. -/
def ueL2 (s : State) (e : UeArgs) : Option L2Line :=
  let line := lineOf (ueAddress s e)
  (sget [] (s.die e.die).l2 (setOf line)).find? fun l => decide (l.line = line)

/-- The L1 line that an error strikes. An L1 holds lines of both dies' GDDR7, and INDEX is the address within its die: that of the array's own die
comes first (log 95). -/
def ueL1 (s : State) (e : UeArgs) : Option L1Line :=
  let at_ (die : Nat) : Nat := (s.cardNo * 2 ^ 47 + die * 2 ^ 46 + e.index.toNat) / 2 ^ 7
  ((s.core (ueCore e)).l1.find? fun l => decide (l.line = at_ e.die))
    <|> (s.core (ueCore e)).l1.find? fun l => decide (l.line = at_ (1 - e.die.val))

/-- The first copy of the PARTID of the entry that an error strikes; none when it has no owner (R273, R386, R398, R446). -/
def ueOwner (s : State) (e : UeArgs) : Option Nat :=
  match e.array.val with
  | 0 => (ueL2 s e).map (·.pid)
  | 1 => (ueL2 s e).map (·.pid)
  | 4 => if s.offline (ueCore e) then none else (ueL1 s e).bind fun _ => s.pidOfCluster (ueCluster e)
  | 7 => s.pidOfCluster (ueCluster e)
  | 8 => s.pidOfCluster (ueCluster e)
  | 9 => s.homeOf (ueAddress s e)
  | 10 => (s.die e.die).shadow
  | _ => if s.offline (ueCore e) then none else s.pidOfCluster (ueCluster e)

/-- The partitions that own the entry: both copies of its owner where they disagree. -/
def ueOwners (s : State) (e : UeArgs) : List Nat :=
  match ueOwner s e with
  | none => []
  | some p => (p :: (e.second.map (·.val)).toList).eraseDups.filter fun p => (s.part p).present

/-- The error strikes a clean L2 or L1 line. -/
def ueClean (s : State) (e : UeArgs) : Bool :=
  match e.array.val with
  | 0 => (ueL2 s e).any fun l => decide (l.dirty = 0)
  | 1 => (ueL2 s e).any fun l => decide (l.dirty = 0)
  | 4 => (ueL1 s e).any fun l => decide (l.dirty = 0)
  | _ => false

/-- A clean line lost: it is invalidated, and the next access fetches it again. -/
def loseLine (e : UeArgs) (s : State) : State :=
  if e.array.val = 4 then
    match ueL1 s e with
    | some v => s.setCore (ueCore e) { s.core (ueCore e) with l1 := (s.core (ueCore e)).l1.filter fun l => decide (l.line ≠ v.line) }
    | none => s
  else match ueL2 s e with
    | some l => s.setDie e.die ((s.die e.die).onLines l.pid l.line (l.line + 1) lineDrop)
    | none => s

/-- The bytes that an error strikes as their line is written back: the first address of the line, and its dirty mask. -/
def ueBack (s : State) (e : UeArgs) : Option (Nat × BitVec 128) :=
  if e.array.val = 4 then (ueL1 s e).map fun l => (l.line * 128, l.dirty)
  else (ueL2 s e).map fun l => (ueAddress s e / 128 * 128, l.dirty)

/-- A line lost as it is written back, which is its dirty bytes alone (R388, R396): they are poisoned, which reads as free values (log 4), and their
granules' tags cleared. -/
def poisonLine (e : UeArgs) (s : State) : State :=
  match ueBack s e with
  | some (pa, dirty) =>
    (List.range 128).foldl (fun s k =>
      let f := s.fresh
      if dirty.getLsbD k then f.2.store (pa + k) 1 (f.1.toNat % 256) else s) s
  | none => s

/-- UNCORRECTABLE_ERROR (Table 17.3). The arrays beyond those of Table 17.4 raise nothing. -/
def uncorrectable (e : UeArgs) (s : State) : State :=
  if 11 ≤ e.array.val then s
  else
    let owners := ueOwners s e
    let clean := ueClean s e
    let s := s.logError e.die
    if owners = [] then s
    else if clean then loseLine e s
    else
      let s := if e.writeBack && decide (e.array.val < 2 ∨ e.array.val = 4) then poisonLine e s else s
      owners.foldl (fun s p => s.raiseUe p (ueRecord e)) s

end Sys2Proof.Machine
end

