-- ==== Sys2Proof/Machine/Plain.lean ====
section
/-! DEFINITION. The remaining bodies: branches, jumps and plain system instructions, queries, sealing, compartment calls, atomics,
ordered accesses, recipe instructions. -/

namespace Sys2Proof.Machine

/-- The end-of-kernel marker: two bytes long. -/
def bodyEndOfKernel : Body := { reads := [], len := 2, eff := fun _ => effEndOfKernel }

/-- A branch on two x registers. -/
def bodyBranch (a : SArgs) (eff : State → Except Stop State) : Body :=
  { reads := [rx a.rs1, rx a.rs2], sc := a.sc, jumps := true, eff := fun _ => eff }
/-- A branch on a predicate. -/
def bodyBranchP (a : SArgs) (eff : State → Except Stop State) : Body :=
  { reads := [rp a.rs1], sc := a.sc, jumps := true, eff := fun _ => eff }
/-- JAL. -/
def bodyJal (a : JArgs) : Body := { reads := [], writes := [rx 1], sc := a.sc, jumps := true, eff := fun _ => effJal a }
/-- JALC. -/
def bodyJalc (a : IArgs) : Body :=
  { reads := rx a.rd :: (if a.rs1.val = 0 then [] else [rc a.rs1]), writes := [rx a.rd], sc := a.sc, jumps := true,
    eff := fun _ => effJalc a }
/-- An instruction of major 0x0A that names no register. -/
def bodySimple (a : IArgs) (eff : State → Except Stop State) : Body := { reads := [], sc := a.sc, eff := fun _ => eff }
/-- TRET. -/
def bodyTret (a : IArgs) : Body :=
  { reads := [], writes := [rc 30, rc 31], sc := a.sc, jumps := true, pre := sysOnly, eff := fun _ => effTret a }

/-- CGETF. -/
def bodyCgetf (a : RArgs) : Body := bodyR2 .x .c .x latCap a (effCgetf a)
/-- CTEST. -/
def bodyCtest (a : RArgs) : Body := bodyR1 .x .c latCap a (effCtest a)
/-- CSUBSET. -/
def bodyCsubset (a : RArgs) : Body := bodyR2 .x .c .c latCap a (effCsubset a)
/-- CEQ. -/
def bodyCeq (a : RArgs) : Body := bodyR2 .x .c .c latCap a (effCeq a)
/-- CBIND. -/
def bodyCbind (a : RArgs) : Body := bodyR2 .c .c .c 0 a (effCbind a)
/-- CUNBIND. -/
def bodyCunbind (a : RArgs) : Body := bodyR2 .c .c .c 0 a (effCunbind a)
/-- CKEY: privileged. -/
def bodyCkey (a : RArgs) : Body := { bodyR1 .c .x 0 a (effCkey a) with pre := sysOnly }

/-- The registers that a compartment switch clears (R182, R183). -/
def wiped : List RegRef :=
  regRange .x 1 9 ++ regRange .x 18 31 ++ regRange .c 9 31 ++ regRange .v 0 31 ++ regRange .p 1 7

/-- The x registers that pass through it, rebuilt before their ties go. -/
def passed : List RegRef := regRange .x 10 17

/-- CCALL. The frame takes c30 and c31 by reads (R8, R182). -/
def bodyCcall (a : RArgs) : Body :=
  { reads := [rc a.rs1, rc a.rs2, rc 30, rc 31], sync := if a.sr then some (rc a.rs1) else none, rebuilds := passed, writes := wiped,
    sc := a.sc, jumps := true, eff := fun _ => effCcall a }
/-- CRET. -/
def bodyCret (a : RArgs) : Body :=
  { reads := [], rebuilds := passed, writes := wiped, sc := a.sc, jumps := true, eff := fun _ => effCret a }

/-- AMOCAS: x[rd] is a source. -/
def bodyAmocas (a : AArgs) : Body := { bodyAmo a (effAmocas a) with reads := [rc a.cs, rx a.rs2, rx a.rd] }
/-- LD.ACQ. -/
def bodyLdAcq (a : AArgs) : Body := { reads := [rc a.cs], writes := [rx a.rd], sc := a.sc, eff := fun _ => effLdAcq a }
/-- ST.REL. -/
def bodyStRel (a : AArgs) : Body := { reads := [rc a.cs, rx a.rs2], sc := a.sc, eff := fun _ => effStRel a }
/-- FENCE. -/
def bodyFence (a : AArgs) : Body := { reads := [], sc := a.sc, eff := fun _ => effFence a }

end Sys2Proof.Machine
end

