-- ==== Sys2Proof/Machine/Lines.lean ====
section
/-! DEFINITION. What a strand's next instruction needs of its core's caches: the lines of the registers that it reads (R229, R247) and the entries
of the objects that its capabilities name (R44). -/

namespace Sys2Proof.Machine

/-- An instruction as the issue logic sees it; none for a step of another agent. -/
def bodyAll (i : Instr) : Option Body :=
  match i with
  | .endOfKernel => some bodyEndOfKernel
  | .beq a => some (bodyBranch a (effBeq a))
  | .bne a => some (bodyBranch a (effBne a))
  | .blt a => some (bodyBranch a (effBlt a))
  | .bge a => some (bodyBranch a (effBge a))
  | .bltn a => some (bodyBranch a (effBltn a))
  | .bgen a => some (bodyBranch a (effBgen a))
  | .jal a => some (bodyJal a)
  | .jalc a => some (bodyJalc a)
  | .tend a => some (bodyTend a)
  | .ecall a => some (bodySimple a (effEcall a))
  | .ebreak a => some (bodySimple a (effEbreak a))
  | .nop a => some (bodySimple a (effNop a))
  | .amoadd a => some (bodyAmo a (effAmoadd a))
  | .amoand a => some (bodyAmo a (effAmoand a))
  | .amoor a => some (bodyAmo a (effAmoor a))
  | .amoxor a => some (bodyAmo a (effAmoxor a))
  | .amomin a => some (bodyAmo a (effAmomin a))
  | .amomax a => some (bodyAmo a (effAmomax a))
  | .amominn a => some (bodyAmo a (effAmominn a))
  | .amomaxn a => some (bodyAmo a (effAmomaxn a))
  | .amoswap a => some (bodyAmo a (effAmoswap a))
  | .amocas a => some (bodyAmocas a)
  | .amofadd a => some (bodyAmo a (effAmofadd a))
  | .ldAcq a => some (bodyLdAcq a)
  | .stRel a => some (bodyStRel a)
  | .fence a => some (bodyFence a)
  | .lds a => some (bodyLds a)
  | .sts a => some (bodySts a)
  | .ldf a => some (bodyLdf a)
  | .setfe a => some (bodySetfe a)
  | .waita a => some (bodyWaita a)
  | .movg a => some (bodyMovg a)
  | .movfg a => some (bodyMovfg a)
  | .rdef a => some (bodyRecipe a true (effRdef a))
  | .rtag a => some (bodyRecipe a false (effRtag a))
  | .rdrop a => some (bodyRecipe a false (effRdrop a))
  | .rpin a => some (bodyRecipe a false (effRpin a))
  | .rinv a => some (bodyRecipe a false (effRinv a))
  | .cgetf a => some (bodyCgetf a)
  | .ctest a => some (bodyCtest a)
  | .csubset a => some (bodyCsubset a)
  | .ceq a => some (bodyCeq a)
  | .cbind a => some (bodyCbind a)
  | .cunbind a => some (bodyCunbind a)
  | .ccall a => some (bodyCcall a)
  | .cret a => some (bodyCret a)
  | .ckey a => some (bodyCkey a)
  | .bpany a => some (bodyBranchP a (effBpany a))
  | .bpnone a => some (bodyBranchP a (effBpnone a))
  | .mwload a => some (bodyMwload a)
  | .mzero a => some (bodyMzero a)
  | .mstat a => some (bodyMstat a)
  | .mma a => some (bodyMma a)
  | .mstore a => some (bodyMstore a)
  | .mrdrow a => some (bodyMrdrow a)
  | .mwrrow a => some (bodyMwrrow a)
  | .cpy a => some (bodyCpy a)
  | .cpyw a => some (bodyCpyw a)
  | .cpyb a => some (bodyCpyb a)
  | .cpys a => some (bodyCpys a)
  | .cpym a => some (bodyCpym a)
  | .cpf a => some (bodyCpf a)
  | .cfill a => some (bodyCfill a)
  | .cpresume a => some (bodyCpresume a)
  | .cpabort a => some (bodyCpabort a)
  | .cpstat a => some (bodyCpstat a)
  | .qfence a => some (bodyQfence a)
  | .barinit a => some (bodyBarinit a)
  | .barexp a => some (bodyBarexp a)
  | .bararr a => some (bodyBararr a)
  | .barwait a => some (bodyBarwait a)
  | .barflg a => some (bodyBarflg a)
  | .bankfmt a => some (bodyBankfmt a)
  | .splock a => some (bodySplock a)
  | .spunlock a => some (bodySpunlock a)
  | .spawn a => some (bodySpawn a)
  | .reap a => some (bodyReap a)
  | .yield a => some (bodyYield a)
  | .park a => some (bodyPark a)
  | .wake a => some (bodyWake a)
  | .putr a => some (bodyPutr a)
  | .skjoin a => some (bodySkjoin a)
  | .skleave a => some (bodySkleave a)
  | .skbar a => some (bodySkbar a)
  | .skquery a => some (bodySkquery a)
  | .twait a => some (bodyTwait a)
  | .kvsub a => some (bodyKvsub a)
  | .kvunsub a => some (bodyKvunsub a)
  | .kvnext a => some (bodyKvnext a)
  | .kvrel a => some (bodyKvrel a)
  | .mgalloc a => some (bodyMgalloc a)
  | .mgput a => some (bodyMgput a)
  | .mgget a => some (bodyMgget a)
  | .mgfree a => some (bodyMgfree a)
  | .l2pin a => some (bodyL2pin a)
  | .l2unpin a => some (bodyL2unpin a)
  | .l2hint a => some (bodyL2hint a)
  | .l2flush a => some (bodyL2flush a)
  | .l2inv a => some (bodyL2inv a)
  | .oalloc a => some (bodyOalloc a)
  | .ofree a => some (bodyOfree a)
  | .sweepgo a => some (bodySweepgo a)
  | .sweepstat a => some (bodySweepstat a)
  | .verstep a => some (bodyVerstep a)
  | .lncpy a => some (bodyLncpy a)
  | .lnred a => some (bodyLnred a)
  | .lnfence a => some (bodyLnfence a)
  | .lnstat a => some (bodyLnstat a)
  | .csrr a => some (bodyCsrr a)
  | .csrw a => some (bodyCsrw a)
  | .csrs a => some (bodyCsrs a)
  | .csrc a => some (bodyCsrc a)
  | .tret a => some (bodyTret a)
  | .vaddF32C16 a => some (laneBody 0 a)
  | .vsubF32C16 a => some (laneBody 1 a)
  | .vmulF32C16 a => some (laneBody 2 a)
  | .vminF32C16 a => some (laneBody 3 a)
  | .vmaxF32C16 a => some (laneBody 4 a)
  | .vaddS32C16 a => some (laneBody 5 a)
  | .vsubS32C16 a => some (laneBody 6 a)
  | .vandC16 a => some (laneBody 7 a)
  | .vorC16 a => some (laneBody 8 a)
  | .vxorC16 a => some (laneBody 9 a)
  | .vmovC16 a => some (laneBody 10 a)
  | .vnegF32C16 a => some (laneBody 11 a)
  | .vabsF32C16 a => some (laneBody 12 a)
  | .vmacF32C16 a => some (laneBody 13 a)
  | .vsllS32C16 a => some (laneBody 14 a)
  | .vcvtBf16F32C16 a => some (laneBody 15 a)
  | .rep a => some (bodyRep a)
  | .tlaunch a => some (bodyTlaunch a)
  | i => bodyOf i

/-- What was fetched as the issue logic sees it. -/
def bodyFetched (f : Fetched) : Option Body :=
  match f with
  | .whole i => bodyAll i
  | .lane op a => some (laneBody op a)

/-- The instruction at the current strand's pc, and where its bytes lie. -/
def fetchMe (s : State) : Except Stop (Fetched × List Elem) := do
  let h ← fetchAt s s.me.pc
  let d ← decodeFetched h.1
  .ok (d.1, h.2)

/-- The registers that a TLAUNCH reads beside those that it names: its operands, and what the methods of its resolution copy. -/
def launchLooks (a : RArgs) (s : State) : List RegRef :=
  launchRegs (ctlOps (s.me.readX a.rs2)) ++ match launchTargets a s, (launchResolve a s).2 with
    | .ok _, .ok (_, r) => r.regs
    | _, _ => []

/-- Those that a REP whose own stall count is 0 reads with its first repetition, which it performs as it issues (log 3). -/
def repLooks (a : RepArgs) (s : State) : List RegRef :=
  match fetchAt s (s.me.pc + 4) with
  | .error _ => []
  | .ok h =>
    match wordBody (stepWord a (bytesWord h.1) s.me.repdone.toNat) with
    | some b => if a.sc.val = 0 then b.reads ++ b.rebuilds else []
    | none => []

/-- Registers that the current strand's instruction reads beside those that it names (R229, R247). -/
def extraReads (f : Fetched) (s : State) : List RegRef :=
  match f with
  | .whole (.spawn a) => spawnCopies (s.me.readX a.rs2)
  | .whole (.tlaunch a) => launchLooks a s
  | .whole (.lncpy a) => if (s.me.readX a.rs2).toNat % 4 = 0 then [] else [rc (a.rs1.val + 1)]
  | .whole (.lnred a) => if (s.me.readX a.rs2).toNat % 4 = 0 then [] else [rc (a.rs1.val + 1)]
  | .whole (.mwload a) => if bitOf a.q.val 1 && decide ((s.me.readC a.ca).fmt = fmtI4X) then [rc (a.ca.val + 1)] else []
  | .whole (.rep a) => repLooks a s
  | _ => []

/-- The registers that the current strand's next instruction, or the next repetition of a REP under way, reads. -/
def nextReads (s : State) : List RegRef :=
  match s.me.rep with
  | some r =>
    match wordBody (stepWord r.args r.word s.me.repdone.toNat) with
    | some b => b.reads ++ b.rebuilds
    | none => []
  | none =>
    match fetchMe s with
    | .ok (f, _) =>
      match bodyFetched f with
      | some b => b.reads ++ b.rebuilds ++ extraReads f s
      | none => []
    | .error _ => []

/-- The lines of strand `n` that its next instruction reads: those of its registers, and of its flags, PCC and PC. -/
def nextLines (n : Nat) (s : State) : List Nat :=
  (controlLines ++ (nextReads { s with cur := n }).map lineOfReg).eraseDups

/-- The objects that strand `n`'s next instruction may have to judge: PCC's, and those of the tagged capabilities that it reads (R44, log 54). -/
def nextObjects (n : Nat) (s : State) : List Nat :=
  let t := s.strand n
  let caps := t.pcc :: ((nextReads { s with cur := n }).filter fun r => decide (r.cls = .c)).map fun r => t.readC r.num
  ((caps.filter fun c => c.tag && !c.isTypeKey).map (·.objid)).eraseDups

/-- The caches of a core as an instruction of strand `n` uses them. -/
def State.useCaches (s : State) (n : Nat) : State :=
  match s.pidOf n with
  | some pid => (nextObjects n s).foldl (fun s i => s.useObject (coreOf n) pid i) (s.useLines n (nextLines n s))
  | none => s

end Sys2Proof.Machine
end

