-- ==== Sys2Proof/Machine/Tree.lean ====
section
/-! DEFINITION. The all-asleep tree (R233, R402, R403): when a context asserts asleep, what traffic counts, and the report at the monitor. -/

namespace Sys2Proof.Machine

/-- An arrival towards an empty register on which a strand is parked is in flight (R233, R336). -/
def awaitsArrival (s : State) (n : Nat) : Bool :=
  match (s.strand n).wait with
  | .empty rs => rs.any fun r => [0, 1].any fun dir => inFlightTo s (linkTarget (coreOf n) (1 - dir)) dir n r
  | _ => false

/-- A wait that issues its instruction again when its condition holds. -/
def Wait.retries (w : Wait) : Bool :=
  match w with
  | .retry => true
  | .empty _ => true
  | .skein => true
  | .bankfmt _ => true
  | .fence _ => true
  | .tend _ => true
  | _ => false

/-- A strand that waited waits on for the same thing. -/
def Strand.waitsOn (u t : Strand) : Bool := t.waiting && decide (u.status = t.status) && decide (u.wait = t.wait)

/-- What would come of strand `n`'s instruction if it issued now. -/
def tried (n : Nat) (s : State) : Except Stop State :=
  let u : State := { s.setStrand n { s.strand n with status := .running } with cur := n }
  match fetchMe u with
  | .error e => .error e
  | .ok (.whole (.rep a), _) => tryRep a u
  | .ok (f, _) =>
    match bodyFetched f with
    | some b => attempt b 0 u
    | none => .ok u

/-- The condition that a waiting strand's instruction awaits has come: issued now, it would not go on waiting for it. -/
def conditionCome (n : Nat) (s : State) : Bool :=
  let t := s.strand n
  (decide (t.status = .reaping) || decide (t.status = .parked) && t.wait.retries) && match tried n s with
    | .ok u => !((u.strand n).waitsOn t)
    | .error (.park w) => !((t.parked w).waitsOn t)
    | .error (.trap _) => true
    | .error .hold => false

/-- A context asserts its asleep signal (Table 9.1): one whose awaited condition has come, or that an event wakes, is Running. -/
def contextAsleep (s : State) (n : Nat) : Bool :=
  let t := s.strand n
  t.hold || match t.status with
    | .running => false
    | .inMma => false
    | .parked => !(awaitsArrival s n) && !(t.events.any t.takes) && !(conditionCome n s)
    | .reaping => !(t.events.any t.takes) && !(conditionCome n s)
    | .asleep => !(t.events.any t.takes)
    | _ => true

/-- An entry of a link buffer is in flight (R336). -/
def linkBusy (s : State) (core dir : Nat) : Bool :=
  match s.link core dir with
  | [] => false
  | e :: _ =>
    let t := s.strand (e.strand core dir)
    !(decide (t.status = .free) || decide (t.status = .ended) || !(t.isEmpty e.reg) || t.isDropped e.reg)

/-- A core's engines hold work (Table 17.6). -/
def coreBusy (s : State) (core : Nat) : Bool :=
  let k := s.core core
  decide (k.mq ≠ []) || (k.cq.any fun q => !q.2.halted && decide (q.2.ops ≠ [])) || linkBusy s core 0 || linkBusy s core 1

/-- The dispatcher has a task that a context could start now. -/
def dispatchBusy (s : State) (pid cl : Nat) : Bool :=
  match serving s cl with
  | some (_, k, _, scnt) => ((List.range 128).map (128 * cl + ·)).any (startable s pid cl k.id scnt)
  | none => false

/-- A partition's mailbox holds a record that can be accepted. -/
def mailboxBusy (s : State) (pid : Nat) : Bool :=
  let p := s.part pid
  let home := lowestCluster s pid (p.mbctl.toNat / 4 % 2)
  bitOf p.mbctl.toNat 0 && decide (p.mbtail ≠ p.mbhead) && !(freeSlots s (home.getD 0)).isEmpty

/-- The link engine moves packets of a partition: an LNRED that waits for its partner does not count (R468). -/
def engineBusy (s : State) (pid die : Nat) : Bool :=
  match s.linkHead die pid with
  | some o => !(o.red && o.sent)
  | none => false

/-- A strand of a core waits for the slices. -/
def slicesBusy (s : State) (core : Nat) : Bool :=
  ((List.range 16).map fun k => s.strand (16 * core + k)).any fun t => decide (t.status = .parked) && match t.wait with
    | .slices _ _ => true
    | _ => false

/-- Some source of Table 17.6 counts. -/
def traffic (s : State) (pid : Nat) : Bool :=
  let cls := heldClusters s pid
  let cores := cls.flatMap fun c => (List.range 8).map (8 * c + ·)
  cores.any (coreBusy s) || cls.any (fun c => kmuBusy s c || dispatchBusy s pid c) || mailboxBusy s pid
    || [0, 1].any (engineBusy s pid) || s.posted (some pid) || cores.any (slicesBusy s)
    || s.seamHolds (some pid)

/-- The output of a partition's tree, which spans both cards of a pair: what the peer card's part gives is that card's (log 20). -/
def treeHigh (s : State) (pid : Nat) : Bool :=
  let p := s.part pid
  decide (p.run = .running)
    && (((s.coreMap pid).flatMap fun c => (List.range 16).map (16 * c + ·)).all (contextAsleep s)) && !(traffic s pid)
    && (p.paired.isNone || Config.peerAsleep s.cycle pid)

/-- ALLASLEEP when the output rises: at the monitor, which its own card tells when it is a strand of the peer card, else in EVENTS. -/
def asleepRise (pid : Nat) (s : State) : State :=
  let p := s.part pid
  if p.asleep then s
  else
    let s := s.setPart pid { p with asleep := true }
    if (s.monitor pid).isNone && p.monitorAway then s else s.toMonitor pid (mkEvent 7 0 .allasleep 0 0) 1 0

/-- The event ALLASLEEP. -/
def allasleepEvent (pid : Nat) (s : State) : State := if treeHigh s pid then asleepRise pid s else s

end Sys2Proof.Machine
end

