-- ==== Sys2Proof/Machine/ExecScalar.lean ====
section
/-! DEFINITION. Meanings of the scalar integer and floating-point instructions (majors 0x00 to 0x07). -/

namespace Sys2Proof.Machine

/-- ADD (R88). -/
def execAdd (a : RArgs) (s : State) : Answer := issue (bodyAdd a) s
/-- SUB (R88). -/
def execSub (a : RArgs) (s : State) : Answer := issue (bodySub a) s
/-- AND (R88). -/
def execAnd (a : RArgs) (s : State) : Answer := issue (bodyAnd a) s
/-- OR (R88). -/
def execOr (a : RArgs) (s : State) : Answer := issue (bodyOr a) s
/-- XOR (R88). -/
def execXor (a : RArgs) (s : State) : Answer := issue (bodyXor a) s
/-- SLL (R88). -/
def execSll (a : RArgs) (s : State) : Answer := issue (bodySll a) s
/-- SRL (R88). -/
def execSrl (a : RArgs) (s : State) : Answer := issue (bodySrl a) s
/-- SRA (R88). -/
def execSra (a : RArgs) (s : State) : Answer := issue (bodySra a) s
/-- ROL (R88). -/
def execRol (a : RArgs) (s : State) : Answer := issue (bodyRol a) s
/-- ROR (R88). -/
def execRor (a : RArgs) (s : State) : Answer := issue (bodyRor a) s
/-- SLT (R88). -/
def execSlt (a : RArgs) (s : State) : Answer := issue (bodySlt a) s
/-- SLTN (R88). -/
def execSltn (a : RArgs) (s : State) : Answer := issue (bodySltn a) s
/-- MIN (R88). -/
def execMin (a : RArgs) (s : State) : Answer := issue (bodyMin a) s
/-- MAX (R88). -/
def execMax (a : RArgs) (s : State) : Answer := issue (bodyMax a) s
/-- MINN (R88). -/
def execMinn (a : RArgs) (s : State) : Answer := issue (bodyMinn a) s
/-- MAXN (R88). -/
def execMaxn (a : RArgs) (s : State) : Answer := issue (bodyMaxn a) s
/-- MUL (R88). -/
def execMul (a : RArgs) (s : State) : Answer := issue (bodyMul a) s
/-- MULH (R88). -/
def execMulh (a : RArgs) (s : State) : Answer := issue (bodyMulh a) s
/-- MULHN (R88). -/
def execMulhn (a : RArgs) (s : State) : Answer := issue (bodyMulhn a) s
/-- DIV (R89). -/
def execDiv (a : RArgs) (s : State) : Answer := issue (bodyDiv a) s
/-- DIVN (R89). -/
def execDivn (a : RArgs) (s : State) : Answer := issue (bodyDivn a) s
/-- REM (R89). -/
def execRem (a : RArgs) (s : State) : Answer := issue (bodyRem a) s
/-- REMN (R89). -/
def execRemn (a : RArgs) (s : State) : Answer := issue (bodyRemn a) s
/-- CLZ (R88). -/
def execClz (a : RArgs) (s : State) : Answer := issue (bodyClz a) s
/-- CTZ (R88). -/
def execCtz (a : RArgs) (s : State) : Answer := issue (bodyCtz a) s
/-- POPC (R88). -/
def execPopc (a : RArgs) (s : State) : Answer := issue (bodyPopc a) s
/-- ADDI (R90). -/
def execAddi (a : IArgs) (s : State) : Answer := issue (bodyAddi a) s
/-- ANDI (R90). -/
def execAndi (a : IArgs) (s : State) : Answer := issue (bodyAndi a) s
/-- ORI (R90). -/
def execOri (a : IArgs) (s : State) : Answer := issue (bodyOri a) s
/-- XORI (R90). -/
def execXori (a : IArgs) (s : State) : Answer := issue (bodyXori a) s
/-- SLLI (R90). -/
def execSlli (a : IArgs) (s : State) : Answer := issue (bodySlli a) s
/-- SRLI (R90). -/
def execSrli (a : IArgs) (s : State) : Answer := issue (bodySrli a) s
/-- SRAI (R90). -/
def execSrai (a : IArgs) (s : State) : Answer := issue (bodySrai a) s
/-- SLTI (R90). -/
def execSlti (a : IArgs) (s : State) : Answer := issue (bodySlti a) s
/-- LUI (R91). -/
def execLui (a : UArgs) (s : State) : Answer := issue (bodyLui a) s
/-- FADD (R93). -/
def execFadd (a : FArgs) (s : State) : Answer := issue (bodyFadd a) s
/-- FSUB (R93). -/
def execFsub (a : FArgs) (s : State) : Answer := issue (bodyFsub a) s
/-- FMUL (R93). -/
def execFmul (a : FArgs) (s : State) : Answer := issue (bodyFmul a) s
/-- FFMA (R93). -/
def execFfma (a : FArgs) (s : State) : Answer := issue (bodyFfma a) s
/-- FDIV (R93). -/
def execFdiv (a : FArgs) (s : State) : Answer := issue (bodyFdiv a) s
/-- FSQRT (R93). -/
def execFsqrt (a : FArgs) (s : State) : Answer := issue (bodyFsqrt a) s
/-- FMIN (R95). -/
def execFmin (a : FArgs) (s : State) : Answer := issue (bodyFmin a) s
/-- FMAX (R95). -/
def execFmax (a : FArgs) (s : State) : Answer := issue (bodyFmax a) s
/-- FCMP_EQ (R96). -/
def execFcmpEq (a : FArgs) (s : State) : Answer := issue (bodyFcmpEq a) s
/-- FCMP_LT (R96). -/
def execFcmpLt (a : FArgs) (s : State) : Answer := issue (bodyFcmpLt a) s
/-- FCMP_LE (R96). -/
def execFcmpLe (a : FArgs) (s : State) : Answer := issue (bodyFcmpLe a) s
/-- FCVT (R98). -/
def execFcvt (a : CvtArgs) (s : State) : Answer := issue (bodyFcvt a) s

end Sys2Proof.Machine
end

