-- ==== Sys2Proof/Machine/ExecControl.lean ====
section
/-! DEFINITION. Meanings of branches, jumps, REP, the plain system instructions and the control-register instructions (majors 0x08 to 0x0B, 0x33, 0x3F). -/

namespace Sys2Proof.Machine

/-- END_OF_KERNEL (R55). -/
def execEndOfKernel (s : State) : Answer := issue bodyEndOfKernel s
/-- BEQ (R100). -/
def execBeq (a : SArgs) (s : State) : Answer := issue (bodyBranch a (effBeq a)) s
/-- BNE (R100). -/
def execBne (a : SArgs) (s : State) : Answer := issue (bodyBranch a (effBne a)) s
/-- BLT (R100). -/
def execBlt (a : SArgs) (s : State) : Answer := issue (bodyBranch a (effBlt a)) s
/-- BGE (R100). -/
def execBge (a : SArgs) (s : State) : Answer := issue (bodyBranch a (effBge a)) s
/-- BLTN (R100). -/
def execBltn (a : SArgs) (s : State) : Answer := issue (bodyBranch a (effBltn a)) s
/-- BGEN (R100). -/
def execBgen (a : SArgs) (s : State) : Answer := issue (bodyBranch a (effBgen a)) s
/-- JAL (R102). -/
def execJal (a : JArgs) (s : State) : Answer := issue (bodyJal a) s
/-- JALC (R103). -/
def execJalc (a : IArgs) (s : State) : Answer := issue (bodyJalc a) s
/-- TEND (R108). -/
def execTend (a : IArgs) (s : State) : Answer := issue (bodyTend a) s
/-- ECALL (R110). -/
def execEcall (a : IArgs) (s : State) : Answer := issue (bodySimple a (effEcall a)) s
/-- EBREAK (R110). -/
def execEbreak (a : IArgs) (s : State) : Answer := issue (bodySimple a (effEbreak a)) s
/-- NOP (R111). -/
def execNop (a : IArgs) (s : State) : Answer := issue (bodySimple a (effNop a)) s
/-- REP (R70). -/
def execRep (a : RepArgs) (s : State) : Answer := outcome s (tryRep a s)
/-- BPANY (R167). -/
def execBpany (a : SArgs) (s : State) : Answer := issue (bodyBranchP a (effBpany a)) s
/-- BPNONE (R167). -/
def execBpnone (a : SArgs) (s : State) : Answer := issue (bodyBranchP a (effBpnone a)) s
/-- CSRR (R113). -/
def execCsrr (a : IArgs) (s : State) : Answer := issue (bodyCsrr a) s
/-- CSRW (R114). -/
def execCsrw (a : IArgs) (s : State) : Answer := issue (bodyCsrw a) s
/-- CSRS (R114). -/
def execCsrs (a : IArgs) (s : State) : Answer := issue (bodyCsrs a) s
/-- CSRC (R114). -/
def execCsrc (a : IArgs) (s : State) : Answer := issue (bodyCsrc a) s
/-- TRET (R222). -/
def execTret (a : IArgs) (s : State) : Answer := issue (bodyTret a) s

end Sys2Proof.Machine
end

