-- ==== Sys2Proof/Machine/ExecMemory.lean ====
section
/-! DEFINITION. Meanings of loads, stores, atomics, ordered and full/empty accesses, and shared registers (majors 0x0C to 0x16). -/

namespace Sys2Proof.Machine

/-- LB (R188). -/
def execLb (a : IArgs) (s : State) : Answer := issue (bodyLb a) s
/-- LH (R188). -/
def execLh (a : IArgs) (s : State) : Answer := issue (bodyLh a) s
/-- LW (R188). -/
def execLw (a : IArgs) (s : State) : Answer := issue (bodyLw a) s
/-- LD (R188). -/
def execLd (a : IArgs) (s : State) : Answer := issue (bodyLd a) s
/-- LBN (R188). -/
def execLbn (a : IArgs) (s : State) : Answer := issue (bodyLbn a) s
/-- LHN (R188). -/
def execLhn (a : IArgs) (s : State) : Answer := issue (bodyLhn a) s
/-- LWN (R188). -/
def execLwn (a : IArgs) (s : State) : Answer := issue (bodyLwn a) s
/-- SB (R188). -/
def execSb (a : SArgs) (s : State) : Answer := issue (bodySb a) s
/-- SH (R188). -/
def execSh (a : SArgs) (s : State) : Answer := issue (bodySh a) s
/-- SW (R188). -/
def execSw (a : SArgs) (s : State) : Answer := issue (bodySw a) s
/-- SD (R188). -/
def execSd (a : SArgs) (s : State) : Answer := issue (bodySd a) s
/-- LDE (R189). -/
def execLde (a : MArgs) (s : State) : Answer := issue (bodyLde a) s
/-- STE (R189). -/
def execSte (a : MArgs) (s : State) : Answer := issue (bodySte a) s
/-- LC (R190). -/
def execLc (a : VfArgs) (s : State) : Answer := issue (bodyLc a) s
/-- SC (R190). -/
def execSc (a : VfArgs) (s : State) : Answer := issue (bodySc a) s
/-- VLE (R191). -/
def execVle (a : VfArgs) (s : State) : Answer := issue (bodyVle a) s
/-- VSE (R191). -/
def execVse (a : VfArgs) (s : State) : Answer := issue (bodyVse a) s
/-- VLSE (R191). -/
def execVlse (a : VfArgs) (s : State) : Answer := issue (bodyVlse a) s
/-- VLXE (R191). -/
def execVlxe (a : VfArgs) (s : State) : Answer := issue (bodyVlxe a) s
/-- VSXE (R192). -/
def execVsxe (a : VfArgs) (s : State) : Answer := issue (bodyVsxe a) s
/-- AMOADD (R198). -/
def execAmoadd (a : AArgs) (s : State) : Answer := issue (bodyAmo a (effAmoadd a)) s
/-- AMOAND (R198). -/
def execAmoand (a : AArgs) (s : State) : Answer := issue (bodyAmo a (effAmoand a)) s
/-- AMOOR (R198). -/
def execAmoor (a : AArgs) (s : State) : Answer := issue (bodyAmo a (effAmoor a)) s
/-- AMOXOR (R198). -/
def execAmoxor (a : AArgs) (s : State) : Answer := issue (bodyAmo a (effAmoxor a)) s
/-- AMOMIN (R198). -/
def execAmomin (a : AArgs) (s : State) : Answer := issue (bodyAmo a (effAmomin a)) s
/-- AMOMAX (R198). -/
def execAmomax (a : AArgs) (s : State) : Answer := issue (bodyAmo a (effAmomax a)) s
/-- AMOMINN (R198). -/
def execAmominn (a : AArgs) (s : State) : Answer := issue (bodyAmo a (effAmominn a)) s
/-- AMOMAXN (R198). -/
def execAmomaxn (a : AArgs) (s : State) : Answer := issue (bodyAmo a (effAmomaxn a)) s
/-- AMOSWAP (R198). -/
def execAmoswap (a : AArgs) (s : State) : Answer := issue (bodyAmo a (effAmoswap a)) s
/-- AMOCAS (R198). -/
def execAmocas (a : AArgs) (s : State) : Answer := issue (bodyAmocas a) s
/-- AMOFADD (R198). -/
def execAmofadd (a : AArgs) (s : State) : Answer := issue (bodyAmo a (effAmofadd a)) s
/-- LD_ACQ (R197). -/
def execLdAcq (a : AArgs) (s : State) : Answer := issue (bodyLdAcq a) s
/-- ST_REL (R197). -/
def execStRel (a : AArgs) (s : State) : Answer := issue (bodyStRel a) s
/-- FENCE (R200). -/
def execFence (a : AArgs) (s : State) : Answer := issue (bodyFence a) s
/-- LDS (R201). -/
def execLds (a : RArgs) (s : State) : Answer := issue (bodyLds a) s
/-- STS (R201). -/
def execSts (a : RArgs) (s : State) : Answer := issue (bodySts a) s
/-- LDF (R201). -/
def execLdf (a : RArgs) (s : State) : Answer := issue (bodyLdf a) s
/-- SETFE (R201). -/
def execSetfe (a : RArgs) (s : State) : Answer := issue (bodySetfe a) s
/-- WAITA (R201). -/
def execWaita (a : RArgs) (s : State) : Answer := issue (bodyWaita a) s
/-- MOVG (R205). -/
def execMovg (a : RArgs) (s : State) : Answer := issue (bodyMovg a) s
/-- MOVFG (R205). -/
def execMovfg (a : RArgs) (s : State) : Answer := issue (bodyMovfg a) s

end Sys2Proof.Machine
end

