-- ==== Sys2Proof/Machine/ExecCaps.lean ====
section
/-! DEFINITION. Meanings of recipes and capability instructions (majors 0x17 to 0x19). -/

namespace Sys2Proof.Machine

/-- RDEF (R208). -/
def execRdef (a : RArgs) (s : State) : Answer := issue (bodyRecipe a true (effRdef a)) s
/-- RTAG (R210). -/
def execRtag (a : RArgs) (s : State) : Answer := issue (bodyRecipe a false (effRtag a)) s
/-- RDROP (R211). -/
def execRdrop (a : RArgs) (s : State) : Answer := issue (bodyRecipe a false (effRdrop a)) s
/-- RPIN (R213). -/
def execRpin (a : RArgs) (s : State) : Answer := issue (bodyRecipe a false (effRpin a)) s
/-- RINV (R213). -/
def execRinv (a : RArgs) (s : State) : Answer := issue (bodyRecipe a false (effRinv a)) s
/-- CSLICE (R173). -/
def execCslice (a : RArgs) (s : State) : Answer := issue (bodyCslice a) s
/-- CSTEP (R173). -/
def execCstep (a : RArgs) (s : State) : Answer := issue (bodyCstep a) s
/-- CFLIP (R173). -/
def execCflip (a : RArgs) (s : State) : Answer := issue (bodyCflip a) s
/-- CPERM (R173). -/
def execCperm (a : RArgs) (s : State) : Answer := issue (bodyCperm a) s
/-- CSPLIT (R173). -/
def execCsplit (a : RArgs) (s : State) : Answer := issue (bodyCsplit a) s
/-- CMERGE (R173). -/
def execCmerge (a : RArgs) (s : State) : Answer := issue (bodyCmerge a) s
/-- CFIX (R173). -/
def execCfix (a : RArgs) (s : State) : Answer := issue (bodyCfix a) s
/-- CBCAST (R173). -/
def execCbcast (a : RArgs) (s : State) : Answer := issue (bodyCbcast a) s
/-- CANDP (R173). -/
def execCandp (a : RArgs) (s : State) : Answer := issue (bodyCandp a) s
/-- CREACH (R173). -/
def execCreach (a : RArgs) (s : State) : Answer := issue (bodyCreach a) s
/-- CRETAG (R174). -/
def execCretag (a : RArgs) (s : State) : Answer := issue (bodyCretag a) s
/-- CMOVE (R175). -/
def execCmove (a : RArgs) (s : State) : Answer := issue (bodyCmove a) s
/-- CCLEAR (R175). -/
def execCclear (a : RArgs) (s : State) : Answer := issue (bodyCclear a) s
/-- CGETF (R176). -/
def execCgetf (a : RArgs) (s : State) : Answer := issue (bodyCgetf a) s
/-- CTEST (R176). -/
def execCtest (a : RArgs) (s : State) : Answer := issue (bodyCtest a) s
/-- CSUBSET (R177). -/
def execCsubset (a : RArgs) (s : State) : Answer := issue (bodyCsubset a) s
/-- CEQ (R176). -/
def execCeq (a : RArgs) (s : State) : Answer := issue (bodyCeq a) s
/-- CBIND (R178). -/
def execCbind (a : RArgs) (s : State) : Answer := issue (bodyCbind a) s
/-- CUNBIND (R178). -/
def execCunbind (a : RArgs) (s : State) : Answer := issue (bodyCunbind a) s
/-- CCALL (R182). -/
def execCcall (a : RArgs) (s : State) : Answer := issue (bodyCcall a) s
/-- CRET (R183). -/
def execCret (a : RArgs) (s : State) : Answer := issue (bodyCret a) s
/-- CKEY (R179). -/
def execCkey (a : RArgs) (s : State) : Answer := issue (bodyCkey a) s

end Sys2Proof.Machine
end

