-- ==== Sys2Proof/Machine/ExecVector.lean ====
section
/-! DEFINITION. Meanings of the vector and predicate instructions (majors 0x20 to 0x32). -/

namespace Sys2Proof.Machine

/-- VADD (R150). -/
def execVadd (a : VArgs) (s : State) : Answer := issue (bodyVadd a) s
/-- VSUB (R150). -/
def execVsub (a : VArgs) (s : State) : Answer := issue (bodyVsub a) s
/-- VMUL (R150). -/
def execVmul (a : VArgs) (s : State) : Answer := issue (bodyVmul a) s
/-- VFMA (R150). -/
def execVfma (a : VArgs) (s : State) : Answer := issue (bodyVfma a) s
/-- VFMS (R150). -/
def execVfms (a : VArgs) (s : State) : Answer := issue (bodyVfms a) s
/-- VDIV (R151). -/
def execVdiv (a : VArgs) (s : State) : Answer := issue (bodyVdiv a) s
/-- VMIN (R152). -/
def execVmin (a : VArgs) (s : State) : Answer := issue (bodyVmin a) s
/-- VMAX (R152). -/
def execVmax (a : VArgs) (s : State) : Answer := issue (bodyVmax a) s
/-- VSQRT (R151). -/
def execVsqrt (a : VuArgs) (s : State) : Answer := issue (bodyVsqrt a) s
/-- VRSQ (R151). -/
def execVrsq (a : VuArgs) (s : State) : Answer := issue (bodyVrsq a) s
/-- VRCP (R151). -/
def execVrcp (a : VuArgs) (s : State) : Answer := issue (bodyVrcp a) s
/-- VABS (R153). -/
def execVabs (a : VuArgs) (s : State) : Answer := issue (bodyVabs a) s
/-- VNEG (R153). -/
def execVneg (a : VuArgs) (s : State) : Answer := issue (bodyVneg a) s
/-- VEXP (R131). -/
def execVexp (a : VuArgs) (s : State) : Answer := issue (bodyVexp a) s
/-- VEXP2 (R131). -/
def execVexp2 (a : VuArgs) (s : State) : Answer := issue (bodyVexp2 a) s
/-- VLOG2 (R131). -/
def execVlog2 (a : VuArgs) (s : State) : Answer := issue (bodyVlog2 a) s
/-- VDOT (R154). -/
def execVdot (a : VArgs) (s : State) : Answer := issue (bodyVdot a) s
/-- VSLL (R155). -/
def execVsll (a : VfArgs) (s : State) : Answer := issue (bodyVsll a) s
/-- VSRL (R155). -/
def execVsrl (a : VfArgs) (s : State) : Answer := issue (bodyVsrl a) s
/-- VSRA (R155). -/
def execVsra (a : VfArgs) (s : State) : Answer := issue (bodyVsra a) s
/-- VAND (R156). -/
def execVand (a : VfArgs) (s : State) : Answer := issue (bodyVand a) s
/-- VOR (R156). -/
def execVor (a : VfArgs) (s : State) : Answer := issue (bodyVor a) s
/-- VXOR (R156). -/
def execVxor (a : VfArgs) (s : State) : Answer := issue (bodyVxor a) s
/-- VSEL (R156). -/
def execVsel (a : VfArgs) (s : State) : Answer := issue (bodyVsel a) s
/-- VCVT (R158). -/
def execVcvt (a : VArgs) (s : State) : Answer := issue (bodyVcvt a) s
/-- VCVT_SAT (R157). -/
def execVcvtSat (a : VArgs) (s : State) : Answer := issue (bodyVcvtSat a) s
/-- VPERM (R164). -/
def execVperm (a : VArgs) (s : State) : Answer := issue (bodyVperm a) s
/-- VSLIDE (R165). -/
def execVslide (a : VuArgs) (s : State) : Answer := issue (bodyVslide a) s
/-- VBCAST (R165). -/
def execVbcast (a : VuArgs) (s : State) : Answer := issue (bodyVbcast a) s
/-- VMOVX (R165). -/
def execVmovx (a : VuArgs) (s : State) : Answer := issue (bodyVmovx a) s
/-- VIOTA (R165). -/
def execViota (a : VuArgs) (s : State) : Answer := issue (bodyViota a) s
/-- VCMP (R159). -/
def execVcmp (a : VArgs) (s : State) : Answer := issue (bodyVcmp a) s
/-- VRED (R162). -/
def execVred (a : VArgs) (s : State) : Answer := issue (bodyVred a) s
/-- PAND (R166). -/
def execPand (a : VpArgs) (s : State) : Answer := issue (bodyPand a) s
/-- POR (R166). -/
def execPor (a : VpArgs) (s : State) : Answer := issue (bodyPor a) s
/-- PXOR (R166). -/
def execPxor (a : VpArgs) (s : State) : Answer := issue (bodyPxor a) s
/-- PNOT (R166). -/
def execPnot (a : VpArgs) (s : State) : Answer := issue (bodyPnot a) s
/-- PFIRST (R166). -/
def execPfirst (a : VpArgs) (s : State) : Answer := issue (bodyPfirst a) s
/-- PCNT (R166). -/
def execPcnt (a : VpArgs) (s : State) : Answer := issue (bodyPcnt a) s
/-- VWHILE (R166). -/
def execVwhile (a : VpArgs) (s : State) : Answer := issue (bodyVwhile a) s

end Sys2Proof.Machine
end

