-- ==== Sys2Proof/Machine/ExecEngine.lean ====
section
/-! DEFINITION. Meanings of the matrix, copy, barrier and bank instructions (majors 0x34 to 0x3B). -/

namespace Sys2Proof.Machine

/-- MWLOAD (R285). -/
def execMwload (a : EfArgs) (s : State) : Answer := issue (bodyMwload a) s
/-- MZERO (R288). -/
def execMzero (a : EfArgs) (s : State) : Answer := issue (bodyMzero a) s
/-- MSTAT (R292). -/
def execMstat (a : EfArgs) (s : State) : Answer := issue (bodyMstat a) s
/-- MMA (R286). -/
def execMma (a : EArgs) (s : State) : Answer := issue (bodyMma a) s
/-- MSTORE (R290). -/
def execMstore (a : EArgs) (s : State) : Answer := issue (bodyMstore a) s
/-- MRDROW (R289). -/
def execMrdrow (a : EqArgs) (s : State) : Answer := issue (bodyMrdrow a) s
/-- MWRROW (R289). -/
def execMwrrow (a : EqArgs) (s : State) : Answer := issue (bodyMwrrow a) s
/-- CPY (R305). -/
def execCpy (a : EfArgs) (s : State) : Answer := issue (bodyCpy a) s
/-- CPYW (R313). -/
def execCpyw (a : EfArgs) (s : State) : Answer := issue (bodyCpyw a) s
/-- CPYB (R314). -/
def execCpyb (a : EfArgs) (s : State) : Answer := issue (bodyCpyb a) s
/-- CPYS (R308). -/
def execCpys (a : EfArgs) (s : State) : Answer := issue (bodyCpys a) s
/-- CPYM (R315). -/
def execCpym (a : EfArgs) (s : State) : Answer := issue (bodyCpym a) s
/-- CPF (R317). -/
def execCpf (a : EfArgs) (s : State) : Answer := issue (bodyCpf a) s
/-- CFILL (R318). -/
def execCfill (a : EfArgs) (s : State) : Answer := issue (bodyCfill a) s
/-- CPRESUME (R323). -/
def execCpresume (a : EfArgs) (s : State) : Answer := issue (bodyCpresume a) s
/-- CPABORT (R324). -/
def execCpabort (a : EfArgs) (s : State) : Answer := issue (bodyCpabort a) s
/-- CPSTAT (R322). -/
def execCpstat (a : EfArgs) (s : State) : Answer := issue (bodyCpstat a) s
/-- QFENCE (R326). -/
def execQfence (a : EfArgs) (s : State) : Answer := issue (bodyQfence a) s
/-- BARINIT (R269). -/
def execBarinit (a : EqArgs) (s : State) : Answer := issue (bodyBarinit a) s
/-- BAREXP (R269). -/
def execBarexp (a : EqArgs) (s : State) : Answer := issue (bodyBarexp a) s
/-- BARARR (R270). -/
def execBararr (a : EqArgs) (s : State) : Answer := issue (bodyBararr a) s
/-- BARWAIT (R272). -/
def execBarwait (a : EqArgs) (s : State) : Answer := issue (bodyBarwait a) s
/-- BARFLG (R269). -/
def execBarflg (a : EqArgs) (s : State) : Answer := issue (bodyBarflg a) s
/-- BANKFMT (R260). -/
def execBankfmt (a : EqArgs) (s : State) : Answer := issue (bodyBankfmt a) s
/-- SPLOCK (R263). -/
def execSplock (a : EqArgs) (s : State) : Answer := issue (bodySplock a) s
/-- SPUNLOCK (R263). -/
def execSpunlock (a : EqArgs) (s : State) : Answer := issue (bodySpunlock a) s

end Sys2Proof.Machine
end

