-- ==== Sys2Proof/Machine/ExecUnits.lean ====
section
/-! DEFINITION. Meanings of the core, launch, attention, retention, lifetime and link instructions (majors 0x3C to 0x3E). -/

namespace Sys2Proof.Machine

/-- TLAUNCH: the keys found stay in the method cache when it fails (R345). -/
def issueLaunch (a : RArgs) (s : State) : Answer :=
  match attempt (bodyTlaunch a) 0 s with
  | .error (.trap t) =>
    if t.cause = .nomethod ∨ t.cause = .convpool then .next ((keepKeys a s).trapMe t) else .next (s.trapMe t)
  | r => outcome s (r.map fun s' => s'.finish (bodyTlaunch a))

/-- SPAWN (R237). -/
def execSpawn (a : RArgs) (s : State) : Answer := issue (bodySpawn a) s
/-- REAP (R241). -/
def execReap (a : RArgs) (s : State) : Answer := issue (bodyReap a) s
/-- YIELD (R242). -/
def execYield (a : RArgs) (s : State) : Answer := issue (bodyYield a) s
/-- PARK (R244). -/
def execPark (a : RArgs) (s : State) : Answer := issue (bodyPark a) s
/-- WAKE (R243). -/
def execWake (a : RArgs) (s : State) : Answer := issue (bodyWake a) s
/-- PUTR (R333). -/
def execPutr (a : RArgs) (s : State) : Answer := issue (bodyPutr a) s
/-- SKJOIN (R338). -/
def execSkjoin (a : RArgs) (s : State) : Answer := issue (bodySkjoin a) s
/-- SKLEAVE (R338). -/
def execSkleave (a : RArgs) (s : State) : Answer := issue (bodySkleave a) s
/-- SKBAR (R339). -/
def execSkbar (a : RArgs) (s : State) : Answer := issue (bodySkbar a) s
/-- SKQUERY (R340). -/
def execSkquery (a : RArgs) (s : State) : Answer := issue (bodySkquery a) s
/-- TLAUNCH (R351). -/
def execTlaunch (a : RArgs) (s : State) : Answer := issueLaunch a s
/-- TWAIT (R354). -/
def execTwait (a : RArgs) (s : State) : Answer := issue (bodyTwait a) s
/-- KVSUB (R361). -/
def execKvsub (a : RArgs) (s : State) : Answer := issue (bodyKvsub a) s
/-- KVUNSUB (R370). -/
def execKvunsub (a : RArgs) (s : State) : Answer := issue (bodyKvunsub a) s
/-- KVNEXT (R368). -/
def execKvnext (a : RArgs) (s : State) : Answer := issue (bodyKvnext a) s
/-- KVREL (R369). -/
def execKvrel (a : RArgs) (s : State) : Answer := issue (bodyKvrel a) s
/-- MGALLOC (R372). -/
def execMgalloc (a : RArgs) (s : State) : Answer := issue (bodyMgalloc a) s
/-- MGPUT (R373). -/
def execMgput (a : RArgs) (s : State) : Answer := issue (bodyMgput a) s
/-- MGGET (R375). -/
def execMgget (a : RArgs) (s : State) : Answer := issue (bodyMgget a) s
/-- MGFREE (R376). -/
def execMgfree (a : RArgs) (s : State) : Answer := issue (bodyMgfree a) s
/-- L2PIN (R394). -/
def execL2pin (a : RArgs) (s : State) : Answer := issue (bodyL2pin a) s
/-- L2UNPIN (R395). -/
def execL2unpin (a : RArgs) (s : State) : Answer := issue (bodyL2unpin a) s
/-- L2HINT (R396). -/
def execL2hint (a : RArgs) (s : State) : Answer := issue (bodyL2hint a) s
/-- L2FLUSH (R396). -/
def execL2flush (a : RArgs) (s : State) : Answer := issue (bodyL2flush a) s
/-- L2INV (R396). -/
def execL2inv (a : RArgs) (s : State) : Answer := issue (bodyL2inv a) s
/-- OALLOC (R437). -/
def execOalloc (a : RArgs) (s : State) : Answer := issue (bodyOalloc a) s
/-- OFREE (R438). -/
def execOfree (a : RArgs) (s : State) : Answer := issue (bodyOfree a) s
/-- SWEEPGO (R443). -/
def execSweepgo (a : RArgs) (s : State) : Answer := issue (bodySweepgo a) s
/-- SWEEPSTAT (R443). -/
def execSweepstat (a : RArgs) (s : State) : Answer := issue (bodySweepstat a) s
/-- VERSTEP (R450). -/
def execVerstep (a : RArgs) (s : State) : Answer := issue (bodyVerstep a) s
/-- LNCPY (R471). -/
def execLncpy (a : RArgs) (s : State) : Answer := issue (bodyLncpy a) s
/-- LNRED (R472). -/
def execLnred (a : RArgs) (s : State) : Answer := issue (bodyLnred a) s
/-- LNFENCE (R476). -/
def execLnfence (a : RArgs) (s : State) : Answer := issue (bodyLnfence a) s
/-- LNSTAT (R477). -/
def execLnstat (a : RArgs) (s : State) : Answer := issue (bodyLnstat a) s

end Sys2Proof.Machine
end

