-- ==== Sys2Proof/Machine/ExecLane.lean ====
section
/-! DEFINITION. Meanings of the 16-bit lane operations (R74). -/

namespace Sys2Proof.Machine

/-- VADD_F32_C16 (R74). -/
def execVaddF32C16 (a : C16Args) (s : State) : Answer := issue (laneBody 0 a) s
/-- VSUB_F32_C16 (R74). -/
def execVsubF32C16 (a : C16Args) (s : State) : Answer := issue (laneBody 1 a) s
/-- VMUL_F32_C16 (R74). -/
def execVmulF32C16 (a : C16Args) (s : State) : Answer := issue (laneBody 2 a) s
/-- VMIN_F32_C16 (R74). -/
def execVminF32C16 (a : C16Args) (s : State) : Answer := issue (laneBody 3 a) s
/-- VMAX_F32_C16 (R74). -/
def execVmaxF32C16 (a : C16Args) (s : State) : Answer := issue (laneBody 4 a) s
/-- VADD_S32_C16 (R74). -/
def execVaddS32C16 (a : C16Args) (s : State) : Answer := issue (laneBody 5 a) s
/-- VSUB_S32_C16 (R74). -/
def execVsubS32C16 (a : C16Args) (s : State) : Answer := issue (laneBody 6 a) s
/-- VAND_C16 (R74). -/
def execVandC16 (a : C16Args) (s : State) : Answer := issue (laneBody 7 a) s
/-- VOR_C16 (R74). -/
def execVorC16 (a : C16Args) (s : State) : Answer := issue (laneBody 8 a) s
/-- VXOR_C16 (R74). -/
def execVxorC16 (a : C16Args) (s : State) : Answer := issue (laneBody 9 a) s
/-- VMOV_C16 (R74). -/
def execVmovC16 (a : C16Args) (s : State) : Answer := issue (laneBody 10 a) s
/-- VNEG_F32_C16 (R74). -/
def execVnegF32C16 (a : C16Args) (s : State) : Answer := issue (laneBody 11 a) s
/-- VABS_F32_C16 (R74). -/
def execVabsF32C16 (a : C16Args) (s : State) : Answer := issue (laneBody 12 a) s
/-- VMAC_F32_C16 (R74). -/
def execVmacF32C16 (a : C16Args) (s : State) : Answer := issue (laneBody 13 a) s
/-- VSLL_S32_C16 (R74). -/
def execVsllS32C16 (a : C16Args) (s : State) : Answer := issue (laneBody 14 a) s
/-- VCVT_BF16_F32_C16 (R74). -/
def execVcvtBf16F32C16 (a : C16Args) (s : State) : Answer := issue (laneBody 15 a) s

end Sys2Proof.Machine
end

