-- ==== Sys2Proof/Machine/ExecEvent.lean ====
section
/-! DEFINITION. Meanings of the steps of other agents. One that its rule does not allow in the state it finds has no effect. -/

namespace Sys2Proof.Machine

/-- A unit of a cluster moves unless the cluster's partition is stopped (R327, R379, R447, R480). -/
def whileRuns (cl : Nat) (f : State → State) (s : State) : State := if clusterRuns s cl then f s else s

/-- A unit of a partition moves while the partition runs. -/
def whilePart (pid : Nat) (f : State → State) (s : State) : State := if (s.part pid).run = .running then f s else s

/-- POWER_ON_RESET (R5). -/
def execPowerOnReset (s : State) : Answer := .next (powerOnReset s)
/-- FIRMWARE_DOWNLOAD (R452). -/
def execFirmwareDownload (digest : BitVec 512) (s : State) : Answer := .next (firmwareDownload digest s)
/-- TRAP_ENTRY (R220). -/
def execTrapEntry (strand : Nat) (cause : BitVec 8) (tval tcap : Word) (s : State) : Answer :=
  .next (trapEntry strand cause tval tcap s)
/-- INTERRUPT (R224). -/
def execInterrupt (pid : Fin 16) (code : BitVec 8) (s : State) : Answer := .next (s.interrupt pid code)
/-- SLOTMODE_WRITE (R234). -/
def execSlotmodeWrite (core : Nat) (value : Word) (s : State) : Answer := .next (slotmodeWrite core value s)
/-- SLOTMODE_SWITCH (R234). -/
def execSlotmodeSwitch (core : Nat) (s : State) : Answer := .next (slotmodeSwitch core s)
/-- L1CFG_WRITE (R253). -/
def execL1cfgWrite (core : Nat) (value : Word) (s : State) : Answer := .next (l1cfgWrite core value s)
/-- L1CFG_RECONFIGURE (R253). -/
def execL1cfgReconfigure (core : Nat) (s : State) : Answer := .next (l1cfgReconfigure core s)
/-- MTBASE_WRITE (R341). -/
def execMtbaseWrite (pid : Fin 16) (value : Word) (s : State) : Answer := .next (s.writeMtbase pid value)
/-- LINK_ARRIVAL (R335). -/
def execLinkArrival (core : Nat) (dir : Fin 2) (s : State) : Answer := .next (linkArrival core dir s)
/-- REGISTER_CACHE_FILL (R247). -/
def execRegisterCacheFill (strand line : Nat) (s : State) : Answer := .next (rcacheFill strand line s)
/-- RECIPE_REPLAY (R212). -/
def execRecipeReplay (strand : Nat) (cls : Fin 2) (reg : Reg) (s : State) : Answer :=
  .next (recipeReplay strand (if cls = 0 then rx reg else rv reg) s)
/-- SYNC_TIMEOUT (R203). -/
def execSyncTimeout (strand : Nat) (s : State) : Answer := .next (syncTimeout strand s)
/-- LOCKHOLD (R265). -/
def execLockhold (core : Nat) (bank : Fin 16) (s : State) : Answer := .next (lockhold core bank s)
/-- BANKFMT_APPLY (R260). -/
def execBankfmtApply (strand : Nat) (s : State) : Answer := .next (bankfmtApply strand s)
/-- MATRIX_OP_START (R279). -/
def execMatrixOpStart (core : Nat) (s : State) : Answer := .next (whileRuns (core / 8) (matStart core) s)
/-- MATRIX_OP_COMPLETE (R280). -/
def execMatrixOpComplete (core : Nat) (s : State) : Answer := .next (whileRuns (core / 8) (matComplete core) s)
/-- COPY_START (R325). -/
def execCopyStart (core : Nat) (queue : Fin 4) (s : State) : Answer := .next (whileRuns (core / 8) (copyStart core queue) s)
/-- COPY_UNIT_DELIVER (R305). -/
def execCopyUnitDeliver (core : Nat) (queue : Fin 4) (s : State) : Answer := .next (whileRuns (core / 8) (copyDeliver core queue) s)
/-- COPY_COMPLETE (R313). -/
def execCopyComplete (core : Nat) (queue : Fin 4) (s : State) : Answer := .next (whileRuns (core / 8) (copyComplete core queue) s)
/-- CPF_COMPLETE (R317). -/
def execCpfComplete (core : Nat) (queue : Fin 4) (s : State) : Answer := .next (whileRuns (core / 8) (cpfComplete core queue) s)
/-- TASK_START (R352). -/
def execTaskStart (cluster : Nat) (slot : Fin 32) (strand : Nat) (s : State) : Answer := .next (whileRuns cluster (taskStartIn cluster slot strand) s)
/-- MAILBOX_ACCEPT (R467). -/
def execMailboxAccept (pid : Fin 16) (s : State) : Answer := .next (mailboxAccept pid s)
/-- KMU_PASS_START (R363). -/
def execKmuPassStart (cluster : Nat) (s : State) : Answer := .next (whileRuns cluster (kmuStart cluster) s)
/-- KMU_PAGE_FETCH (R364). -/
def execKmuPageFetch (cluster : Nat) (s : State) : Answer := .next (whileRuns cluster (kmuFetch cluster) s)
/-- KMU_PAGE_DELIVER (R365). -/
def execKmuPageDeliver (cluster : Nat) (core : Fin 8) (s : State) : Answer := .next (whileRuns cluster (kmuDeliver cluster (8 * cluster + core)) s)
/-- WINDOW_ADJUST (R383). -/
def execWindowAdjust (core : Nat) (marked : Bool) (s : State) : Answer := .next (windowAdjust core marked s)
/-- L2_SLICE_REQUEST (R391). -/
def execL2SliceRequest (pid : Fin 16) (va pa : Nat) (write : Bool) (s : State) : Answer :=
  .next (l2SliceRequest pid va pa write s)
/-- PAGE_TABLE_WALK (R431). -/
def execPageTableWalk (pid : Fin 16) (va : Nat) (write : Bool) (s : State) : Answer := .next (pageTableWalk pid va write s)
/-- GDDR7_BLOCK_WRITE (R451). -/
def execGddr7BlockWrite (pid : Fin 16) (pa : Nat) (_objid : BitVec 20) (s : State) : Answer :=
  .next (gddrWrite pid pa s)
/-- GDDR7_BLOCK_READ (R451). -/
def execGddr7BlockRead (strand : Nat) (pa : Nat) (objid : BitVec 20) (capReg : Reg) (s : State) : Answer :=
  .next (gddrRead strand pa objid.toNat capReg s)
/-- SCRUB (R397). -/
def execScrub (die : Fin 2) (correctable : Bool) (s : State) : Answer := .next (scrub die correctable s)
/-- UNCORRECTABLE_ERROR (R398). -/
def execUncorrectableError (e : UeArgs) (s : State) : Answer := .next (uncorrectable e s)
/-- ALLASLEEP (R403). -/
def execAllasleep (pid : Fin 16) (s : State) : Answer := .next (allasleepEvent pid s)
/-- OFREE_COMMIT (R438). -/
def execOfreeCommit (strand : Nat) (s : State) : Answer := .next (ofreeCommit strand s)
/-- SWEEP_VISIT (R441). -/
def execSweepVisit (pid : Fin 16) (loc : SweepLoc) (s : State) : Answer := .next (s.sweepVisit pid loc)
/-- SWEEP_COMPLETE (R443). -/
def execSweepComplete (e : SweepEnd) (s : State) : Answer := .next (sweepComplete e.pid e.peer s)
/-- PARTITION_CREATE (R444). -/
def execPartitionCreate (d : Descriptor) (s : State) : Answer := .next (partitionCreate d s)
/-- PARTITION_CHANGE (R444). -/
def execPartitionChange (d : Descriptor) (destroy : Bool) (s : State) : Answer := .next (partitionChange d destroy s)
/-- PARTITION_SWAP_OUT (R447). -/
def execPartitionSwapOut (pid : Fin 16) (s : State) : Answer := .next (partitionSwapOut pid s)
/-- PARTITION_SWAP_IN (R447). -/
def execPartitionSwapIn (pid : Fin 16) (s : State) : Answer := .next (partitionSwapIn pid s)
/-- THERMAL_NOTICE (R456). -/
def execThermalNotice (cluster : Nat) (s : State) : Answer := .next (thermalNotice cluster s)
/-- THERMAL_STOP (R456). -/
def execThermalStop (cluster : Nat) (s : State) : Answer := .next (thermalStop cluster s)
/-- POWER_LIMIT_STEP (R456). -/
def execPowerLimitStep (e : PowerStep) (s : State) : Answer := .next (powerLimitStep e.limit e.watts s)
/-- HOST_WRITE (R422). -/
def execHostWrite (pa : BarPlace) (size : Fin 4) (value : Word) (s : State) : Answer := .next (hostWrite pa size value s)
/-- HOST_READ (R481). -/
def execHostRead (place : ReadPlace) (size : Fin 4) (s : State) : Answer := .next (hostRead place size s)
/-- CXL_MEM_REQUEST (R465). -/
def execCxlMemRequest (offset : Nat) (write : Bool) (value : Word) (s : State) : Answer :=
  .next (cxlMemRequest offset write value s)
/-- HOST_LINK_TRAIN (R463). -/
def execHostLinkTrain (width : Nat) (rate : Nat) (cxl : Bool) (s : State) : Answer := .next (hostLinkTrain width rate cxl s)
/-- MBCTL_WRITE (R467). -/
def execMbctlWrite (pid : Fin 16) (value : Word) (s : State) : Answer := .next (mbctlWrite pid value s)
/-- MBTAIL_WRITE (R466). -/
def execMbtailWrite (pid : Fin 16) (value : Word) (s : State) : Answer := .next (mbtailWrite pid value s)
/-- INTREQ (R464). -/
def execIntreq (pid : Fin 16) (value : Word) (s : State) : Answer := .next (intreq pid value s)
/-- PAIRCTL_WRITE (R458). -/
def execPairctlWrite (pid : Fin 16) (pf : Bool) (value : Word) (s : State) : Answer := .next (pairctlWrite pid pf value s)
/-- PAIRING (R458). -/
def execPairing (pid : Fin 16) (peerNames : Option (Fin 16)) (s : State) : Answer := .next (pairHalves pid peerNames s)
/-- HDMPART_WRITE (R465). -/
def execHdmpartWrite (pf : Bool) (value : Word) (s : State) : Answer := .next (hdmpartWrite pf value s)
/-- HDMPART_APPLY (R465). -/
def execHdmpartApply (s : State) : Answer := .next (hdmpartApply s)
/-- COREOFF_WRITE (R446). -/
def execCoreoffWrite (pid : Fin 16) (pf : Bool) (index : Fin 32) (value : Byte) (s : State) : Answer :=
  .next (coreoffWrite pid pf index value s)
/-- DIRTYCTL_WRITE (R479). -/
def execDirtyctlWrite (pid : Fin 16) (pf : Bool) (value : Word) (s : State) : Answer := .next (dirtyctlWrite pid pf value s)
/-- DIRTYDATA_READ (R479). -/
def execDirtydataRead (pid : Fin 16) (pf : Bool) (s : State) : Answer := .next (dirtydataRead pid pf s)
/-- MIGCMD_STOP (R480). -/
def execMigcmdStop (pid : Fin 16) (pf : Bool) (s : State) : Answer := .next (migcmdStop pid pf s)
/-- MIGCMD_SAVE (R480). -/
def execMigcmdSave (pid : Fin 16) (pf : Bool) (s : State) : Answer := .next (migcmdSave pid pf s)
/-- MIGCMD_RESTORE (R480). -/
def execMigcmdRestore (pid : Fin 16) (pf : Bool) (sameGeometry : MigLoad) (s : State) : Answer :=
  .next (migcmdRestore pid pf sameGeometry s)
/-- MIGCMD_RESUME (R480). -/
def execMigcmdResume (pid : Fin 16) (pf : Bool) (s : State) : Answer := .next (migcmdResume pid pf s)
/-- EVIDENCE_REQUEST (R454). -/
def execEvidenceRequest (pid : Fin 16) (nonce : BitVec 512) (s : State) : Answer := .next (evidenceRequest pid nonce s)
/-- KEY_IMPORT (R454). -/
def execKeyImport (pid : Fin 16) (epoch : Word) (request : Nat) (s : State) : Answer := .next (keyImport pid epoch request s)
/-- MEASUREMENT_EXTEND (R452). -/
def execMeasurementExtend (pid : Fin 16) (index : Fin 4) (digest : BitVec 512) (s : State) : Answer :=
  .next (measurementExtend pid index digest s)
/-- EVENTS_CLEAR (R485). -/
def execEventsClear (pid : Fin 16) (value : Word) (s : State) : Answer := .next (eventsClear pid value s)
/-- ADMIN_REG_WRITE (R464). -/
def execAdminRegWrite (pid : Fin 16) (pf : Bool) (offset : Nat) (value : Word) (s : State) : Answer :=
  .next (adminRegWrite pid pf offset value s)
/-- SEAM_TRAIN (R457). -/
def execSeamTrain (trained : Bool) (strap peerStrap : Bool) (s : State) : Answer := .next (seamTrain trained strap peerStrap s)
/-- FLIT_REPLAY (R459). -/
def execFlitReplay (s : State) : Answer := .next (flitReplay s)
/-- SEAM_RETRAIN (R459). -/
def execSeamRetrain (s : State) : Answer := .next (seamRetrain s)
/-- SEAM_DOWN (R462). -/
def execSeamDown (s : State) : Answer := .next (seamDown s)
/-- PEER_STORE (R461). -/
def execPeerStore (_die : Fin 2) (pa : Nat) (size : Fin 7) (value : PeerData) (s : State) : Answer :=
  .next (peerStore pa size value s)
/-- PEER_LOAD (R461). -/
def execPeerLoad (_die : Fin 2) (pa : Nat) (size : PeerRead) (s : State) : Answer := .next (peerLoad pa size s)
/-- PEER_ATOMIC (R461). -/
def execPeerAtomic (pa : Nat) (wide : PeerAtom) (op : Fin 11) (operand expected : Word) (s : State) : Answer :=
  .next (peerAtomic pa wide op operand expected s)
/-- PEER_ACKNOWLEDGE (R461). -/
def execPeerAcknowledge (strand : Nat) (s : State) : Answer := .next (peerAcknowledge strand s)
/-- PEER_WAKE (R243). -/
def execPeerWake (pid : Fin 16) (strand : Nat) (s : State) : Answer := .next (peerWake pid strand s)
/-- PEER_OFREE_UPDATE (R438). -/
def execPeerOfreeUpdate (pid : Fin 16) (objid : BitVec 20) (s : State) : Answer := .next (peerOfreeUpdate pid objid.toNat s)
/-- PEER_INVALIDATION (R458). -/
def execPeerInvalidation (pid : Fin 16) (pa : PeerChange) (s : State) : Answer := .next (peerInvalidation pid pa s)
/-- LNCPY_UNIT_DELIVER (R471). -/
def execLncpyUnitDeliver (die : Fin 2) (pid : Fin 16) (s : State) : Answer := .next (whilePart pid (lncpyDeliver die pid) s)
/-- LNRED_CHUNK_SEND (R473). -/
def execLnredChunkSend (die : Fin 2) (pid : Fin 16) (s : State) : Answer := .next (whilePart pid (lnredSend die pid) s)
/-- LNRED_CHUNK_COMBINE (R473). -/
def execLnredChunkCombine (die : Fin 2) (pid : Fin 16) (fmt : ChunkHead) (extent : Nat) (partner : List (BitVec 32)) (s : State) : Answer :=
  .next (whilePart pid (lnredCombine die pid fmt extent partner) s)
/-- LNRED_PARTNER_HALT (R475). -/
def execLnredPartnerHalt (die : Fin 2) (pid : Fin 16) (lstat : PartnerStop) (s : State) : Answer :=
  .next (lnredPartnerHalt die pid lstat s)
/-- LQ_COMPLETE (R474). -/
def execLqComplete (die : Fin 2) (pid : Fin 16) (s : State) : Answer := .next (whilePart pid (lqComplete die pid) s)
/-- CONTEXT_RESTART (R221). -/
def execContextRestart (strand : Nat) (s : State) : Answer := .next (contextRestart strand s)
/-- POWER_GATING (R454). -/
def execPowerGating (pid : Fin 16) (on : Bool) (s : State) : Answer := .next (powerGating pid on s)

end Sys2Proof.Machine
end

