-- ==== Sys2Proof/Machine/Dispatch.lean ====
section
/-! DEFINITION. One arm for each constructor of Instr, each a call of its meaning. -/

namespace Sys2Proof.Machine

/-- What an instruction or event does. -/
def exec (i : Instr) (s : State) : Host.Outcome State Fault Refusal :=
  match i with
  | .endOfKernel => Sys2Proof.Machine.execEndOfKernel s
  | .add a => Sys2Proof.Machine.execAdd a s
  | .sub a => Sys2Proof.Machine.execSub a s
  | .and a => Sys2Proof.Machine.execAnd a s
  | .or a => Sys2Proof.Machine.execOr a s
  | .xor a => Sys2Proof.Machine.execXor a s
  | .sll a => Sys2Proof.Machine.execSll a s
  | .srl a => Sys2Proof.Machine.execSrl a s
  | .sra a => Sys2Proof.Machine.execSra a s
  | .rol a => Sys2Proof.Machine.execRol a s
  | .ror a => Sys2Proof.Machine.execRor a s
  | .slt a => Sys2Proof.Machine.execSlt a s
  | .sltn a => Sys2Proof.Machine.execSltn a s
  | .min a => Sys2Proof.Machine.execMin a s
  | .max a => Sys2Proof.Machine.execMax a s
  | .minn a => Sys2Proof.Machine.execMinn a s
  | .maxn a => Sys2Proof.Machine.execMaxn a s
  | .mul a => Sys2Proof.Machine.execMul a s
  | .mulh a => Sys2Proof.Machine.execMulh a s
  | .mulhn a => Sys2Proof.Machine.execMulhn a s
  | .div a => Sys2Proof.Machine.execDiv a s
  | .divn a => Sys2Proof.Machine.execDivn a s
  | .rem a => Sys2Proof.Machine.execRem a s
  | .remn a => Sys2Proof.Machine.execRemn a s
  | .clz a => Sys2Proof.Machine.execClz a s
  | .ctz a => Sys2Proof.Machine.execCtz a s
  | .popc a => Sys2Proof.Machine.execPopc a s
  | .addi a => Sys2Proof.Machine.execAddi a s
  | .andi a => Sys2Proof.Machine.execAndi a s
  | .ori a => Sys2Proof.Machine.execOri a s
  | .xori a => Sys2Proof.Machine.execXori a s
  | .slli a => Sys2Proof.Machine.execSlli a s
  | .srli a => Sys2Proof.Machine.execSrli a s
  | .srai a => Sys2Proof.Machine.execSrai a s
  | .slti a => Sys2Proof.Machine.execSlti a s
  | .lui a => Sys2Proof.Machine.execLui a s
  | .fadd a => Sys2Proof.Machine.execFadd a s
  | .fsub a => Sys2Proof.Machine.execFsub a s
  | .fmul a => Sys2Proof.Machine.execFmul a s
  | .ffma a => Sys2Proof.Machine.execFfma a s
  | .fdiv a => Sys2Proof.Machine.execFdiv a s
  | .fsqrt a => Sys2Proof.Machine.execFsqrt a s
  | .fmin a => Sys2Proof.Machine.execFmin a s
  | .fmax a => Sys2Proof.Machine.execFmax a s
  | .fcmpEq a => Sys2Proof.Machine.execFcmpEq a s
  | .fcmpLt a => Sys2Proof.Machine.execFcmpLt a s
  | .fcmpLe a => Sys2Proof.Machine.execFcmpLe a s
  | .fcvt a => Sys2Proof.Machine.execFcvt a s
  | .beq a => Sys2Proof.Machine.execBeq a s
  | .bne a => Sys2Proof.Machine.execBne a s
  | .blt a => Sys2Proof.Machine.execBlt a s
  | .bge a => Sys2Proof.Machine.execBge a s
  | .bltn a => Sys2Proof.Machine.execBltn a s
  | .bgen a => Sys2Proof.Machine.execBgen a s
  | .jal a => Sys2Proof.Machine.execJal a s
  | .jalc a => Sys2Proof.Machine.execJalc a s
  | .tend a => Sys2Proof.Machine.execTend a s
  | .ecall a => Sys2Proof.Machine.execEcall a s
  | .ebreak a => Sys2Proof.Machine.execEbreak a s
  | .nop a => Sys2Proof.Machine.execNop a s
  | .rep a => Sys2Proof.Machine.execRep a s
  | .lb a => Sys2Proof.Machine.execLb a s
  | .lh a => Sys2Proof.Machine.execLh a s
  | .lw a => Sys2Proof.Machine.execLw a s
  | .ld a => Sys2Proof.Machine.execLd a s
  | .lbn a => Sys2Proof.Machine.execLbn a s
  | .lhn a => Sys2Proof.Machine.execLhn a s
  | .lwn a => Sys2Proof.Machine.execLwn a s
  | .sb a => Sys2Proof.Machine.execSb a s
  | .sh a => Sys2Proof.Machine.execSh a s
  | .sw a => Sys2Proof.Machine.execSw a s
  | .sd a => Sys2Proof.Machine.execSd a s
  | .lde a => Sys2Proof.Machine.execLde a s
  | .ste a => Sys2Proof.Machine.execSte a s
  | .lc a => Sys2Proof.Machine.execLc a s
  | .sc a => Sys2Proof.Machine.execSc a s
  | .vle a => Sys2Proof.Machine.execVle a s
  | .vse a => Sys2Proof.Machine.execVse a s
  | .vlse a => Sys2Proof.Machine.execVlse a s
  | .vlxe a => Sys2Proof.Machine.execVlxe a s
  | .vsxe a => Sys2Proof.Machine.execVsxe a s
  | .amoadd a => Sys2Proof.Machine.execAmoadd a s
  | .amoand a => Sys2Proof.Machine.execAmoand a s
  | .amoor a => Sys2Proof.Machine.execAmoor a s
  | .amoxor a => Sys2Proof.Machine.execAmoxor a s
  | .amomin a => Sys2Proof.Machine.execAmomin a s
  | .amomax a => Sys2Proof.Machine.execAmomax a s
  | .amominn a => Sys2Proof.Machine.execAmominn a s
  | .amomaxn a => Sys2Proof.Machine.execAmomaxn a s
  | .amoswap a => Sys2Proof.Machine.execAmoswap a s
  | .amocas a => Sys2Proof.Machine.execAmocas a s
  | .amofadd a => Sys2Proof.Machine.execAmofadd a s
  | .ldAcq a => Sys2Proof.Machine.execLdAcq a s
  | .stRel a => Sys2Proof.Machine.execStRel a s
  | .fence a => Sys2Proof.Machine.execFence a s
  | .lds a => Sys2Proof.Machine.execLds a s
  | .sts a => Sys2Proof.Machine.execSts a s
  | .ldf a => Sys2Proof.Machine.execLdf a s
  | .setfe a => Sys2Proof.Machine.execSetfe a s
  | .waita a => Sys2Proof.Machine.execWaita a s
  | .movg a => Sys2Proof.Machine.execMovg a s
  | .movfg a => Sys2Proof.Machine.execMovfg a s
  | .rdef a => Sys2Proof.Machine.execRdef a s
  | .rtag a => Sys2Proof.Machine.execRtag a s
  | .rdrop a => Sys2Proof.Machine.execRdrop a s
  | .rpin a => Sys2Proof.Machine.execRpin a s
  | .rinv a => Sys2Proof.Machine.execRinv a s
  | .cslice a => Sys2Proof.Machine.execCslice a s
  | .cstep a => Sys2Proof.Machine.execCstep a s
  | .cflip a => Sys2Proof.Machine.execCflip a s
  | .cperm a => Sys2Proof.Machine.execCperm a s
  | .csplit a => Sys2Proof.Machine.execCsplit a s
  | .cmerge a => Sys2Proof.Machine.execCmerge a s
  | .cfix a => Sys2Proof.Machine.execCfix a s
  | .cbcast a => Sys2Proof.Machine.execCbcast a s
  | .candp a => Sys2Proof.Machine.execCandp a s
  | .creach a => Sys2Proof.Machine.execCreach a s
  | .cretag a => Sys2Proof.Machine.execCretag a s
  | .cmove a => Sys2Proof.Machine.execCmove a s
  | .cclear a => Sys2Proof.Machine.execCclear a s
  | .cgetf a => Sys2Proof.Machine.execCgetf a s
  | .ctest a => Sys2Proof.Machine.execCtest a s
  | .csubset a => Sys2Proof.Machine.execCsubset a s
  | .ceq a => Sys2Proof.Machine.execCeq a s
  | .cbind a => Sys2Proof.Machine.execCbind a s
  | .cunbind a => Sys2Proof.Machine.execCunbind a s
  | .ccall a => Sys2Proof.Machine.execCcall a s
  | .cret a => Sys2Proof.Machine.execCret a s
  | .ckey a => Sys2Proof.Machine.execCkey a s
  | .vadd a => Sys2Proof.Machine.execVadd a s
  | .vsub a => Sys2Proof.Machine.execVsub a s
  | .vmul a => Sys2Proof.Machine.execVmul a s
  | .vfma a => Sys2Proof.Machine.execVfma a s
  | .vfms a => Sys2Proof.Machine.execVfms a s
  | .vdiv a => Sys2Proof.Machine.execVdiv a s
  | .vmin a => Sys2Proof.Machine.execVmin a s
  | .vmax a => Sys2Proof.Machine.execVmax a s
  | .vsqrt a => Sys2Proof.Machine.execVsqrt a s
  | .vrsq a => Sys2Proof.Machine.execVrsq a s
  | .vrcp a => Sys2Proof.Machine.execVrcp a s
  | .vabs a => Sys2Proof.Machine.execVabs a s
  | .vneg a => Sys2Proof.Machine.execVneg a s
  | .vexp a => Sys2Proof.Machine.execVexp a s
  | .vexp2 a => Sys2Proof.Machine.execVexp2 a s
  | .vlog2 a => Sys2Proof.Machine.execVlog2 a s
  | .vdot a => Sys2Proof.Machine.execVdot a s
  | .vsll a => Sys2Proof.Machine.execVsll a s
  | .vsrl a => Sys2Proof.Machine.execVsrl a s
  | .vsra a => Sys2Proof.Machine.execVsra a s
  | .vand a => Sys2Proof.Machine.execVand a s
  | .vor a => Sys2Proof.Machine.execVor a s
  | .vxor a => Sys2Proof.Machine.execVxor a s
  | .vsel a => Sys2Proof.Machine.execVsel a s
  | .vcvt a => Sys2Proof.Machine.execVcvt a s
  | .vcvtSat a => Sys2Proof.Machine.execVcvtSat a s
  | .vperm a => Sys2Proof.Machine.execVperm a s
  | .vslide a => Sys2Proof.Machine.execVslide a s
  | .vbcast a => Sys2Proof.Machine.execVbcast a s
  | .vmovx a => Sys2Proof.Machine.execVmovx a s
  | .viota a => Sys2Proof.Machine.execViota a s
  | .vcmp a => Sys2Proof.Machine.execVcmp a s
  | .vred a => Sys2Proof.Machine.execVred a s
  | .pand a => Sys2Proof.Machine.execPand a s
  | .por a => Sys2Proof.Machine.execPor a s
  | .pxor a => Sys2Proof.Machine.execPxor a s
  | .pnot a => Sys2Proof.Machine.execPnot a s
  | .pfirst a => Sys2Proof.Machine.execPfirst a s
  | .pcnt a => Sys2Proof.Machine.execPcnt a s
  | .vwhile a => Sys2Proof.Machine.execVwhile a s
  | .bpany a => Sys2Proof.Machine.execBpany a s
  | .bpnone a => Sys2Proof.Machine.execBpnone a s
  | .mwload a => Sys2Proof.Machine.execMwload a s
  | .mzero a => Sys2Proof.Machine.execMzero a s
  | .mstat a => Sys2Proof.Machine.execMstat a s
  | .mma a => Sys2Proof.Machine.execMma a s
  | .mstore a => Sys2Proof.Machine.execMstore a s
  | .mrdrow a => Sys2Proof.Machine.execMrdrow a s
  | .mwrrow a => Sys2Proof.Machine.execMwrrow a s
  | .cpy a => Sys2Proof.Machine.execCpy a s
  | .cpyw a => Sys2Proof.Machine.execCpyw a s
  | .cpyb a => Sys2Proof.Machine.execCpyb a s
  | .cpys a => Sys2Proof.Machine.execCpys a s
  | .cpym a => Sys2Proof.Machine.execCpym a s
  | .cpf a => Sys2Proof.Machine.execCpf a s
  | .cfill a => Sys2Proof.Machine.execCfill a s
  | .cpresume a => Sys2Proof.Machine.execCpresume a s
  | .cpabort a => Sys2Proof.Machine.execCpabort a s
  | .cpstat a => Sys2Proof.Machine.execCpstat a s
  | .qfence a => Sys2Proof.Machine.execQfence a s
  | .barinit a => Sys2Proof.Machine.execBarinit a s
  | .barexp a => Sys2Proof.Machine.execBarexp a s
  | .bararr a => Sys2Proof.Machine.execBararr a s
  | .barwait a => Sys2Proof.Machine.execBarwait a s
  | .barflg a => Sys2Proof.Machine.execBarflg a s
  | .bankfmt a => Sys2Proof.Machine.execBankfmt a s
  | .splock a => Sys2Proof.Machine.execSplock a s
  | .spunlock a => Sys2Proof.Machine.execSpunlock a s
  | .spawn a => Sys2Proof.Machine.execSpawn a s
  | .reap a => Sys2Proof.Machine.execReap a s
  | .yield a => Sys2Proof.Machine.execYield a s
  | .park a => Sys2Proof.Machine.execPark a s
  | .wake a => Sys2Proof.Machine.execWake a s
  | .putr a => Sys2Proof.Machine.execPutr a s
  | .skjoin a => Sys2Proof.Machine.execSkjoin a s
  | .skleave a => Sys2Proof.Machine.execSkleave a s
  | .skbar a => Sys2Proof.Machine.execSkbar a s
  | .skquery a => Sys2Proof.Machine.execSkquery a s
  | .tlaunch a => Sys2Proof.Machine.execTlaunch a s
  | .twait a => Sys2Proof.Machine.execTwait a s
  | .kvsub a => Sys2Proof.Machine.execKvsub a s
  | .kvunsub a => Sys2Proof.Machine.execKvunsub a s
  | .kvnext a => Sys2Proof.Machine.execKvnext a s
  | .kvrel a => Sys2Proof.Machine.execKvrel a s
  | .mgalloc a => Sys2Proof.Machine.execMgalloc a s
  | .mgput a => Sys2Proof.Machine.execMgput a s
  | .mgget a => Sys2Proof.Machine.execMgget a s
  | .mgfree a => Sys2Proof.Machine.execMgfree a s
  | .l2pin a => Sys2Proof.Machine.execL2pin a s
  | .l2unpin a => Sys2Proof.Machine.execL2unpin a s
  | .l2hint a => Sys2Proof.Machine.execL2hint a s
  | .l2flush a => Sys2Proof.Machine.execL2flush a s
  | .l2inv a => Sys2Proof.Machine.execL2inv a s
  | .oalloc a => Sys2Proof.Machine.execOalloc a s
  | .ofree a => Sys2Proof.Machine.execOfree a s
  | .sweepgo a => Sys2Proof.Machine.execSweepgo a s
  | .sweepstat a => Sys2Proof.Machine.execSweepstat a s
  | .verstep a => Sys2Proof.Machine.execVerstep a s
  | .lncpy a => Sys2Proof.Machine.execLncpy a s
  | .lnred a => Sys2Proof.Machine.execLnred a s
  | .lnfence a => Sys2Proof.Machine.execLnfence a s
  | .lnstat a => Sys2Proof.Machine.execLnstat a s
  | .csrr a => Sys2Proof.Machine.execCsrr a s
  | .csrw a => Sys2Proof.Machine.execCsrw a s
  | .csrs a => Sys2Proof.Machine.execCsrs a s
  | .csrc a => Sys2Proof.Machine.execCsrc a s
  | .tret a => Sys2Proof.Machine.execTret a s
  | .vaddF32C16 a => Sys2Proof.Machine.execVaddF32C16 a s
  | .vsubF32C16 a => Sys2Proof.Machine.execVsubF32C16 a s
  | .vmulF32C16 a => Sys2Proof.Machine.execVmulF32C16 a s
  | .vminF32C16 a => Sys2Proof.Machine.execVminF32C16 a s
  | .vmaxF32C16 a => Sys2Proof.Machine.execVmaxF32C16 a s
  | .vaddS32C16 a => Sys2Proof.Machine.execVaddS32C16 a s
  | .vsubS32C16 a => Sys2Proof.Machine.execVsubS32C16 a s
  | .vandC16 a => Sys2Proof.Machine.execVandC16 a s
  | .vorC16 a => Sys2Proof.Machine.execVorC16 a s
  | .vxorC16 a => Sys2Proof.Machine.execVxorC16 a s
  | .vmovC16 a => Sys2Proof.Machine.execVmovC16 a s
  | .vnegF32C16 a => Sys2Proof.Machine.execVnegF32C16 a s
  | .vabsF32C16 a => Sys2Proof.Machine.execVabsF32C16 a s
  | .vmacF32C16 a => Sys2Proof.Machine.execVmacF32C16 a s
  | .vsllS32C16 a => Sys2Proof.Machine.execVsllS32C16 a s
  | .vcvtBf16F32C16 a => Sys2Proof.Machine.execVcvtBf16F32C16 a s
  | .powerOnReset => Sys2Proof.Machine.execPowerOnReset s
  | .firmwareDownload digest => Sys2Proof.Machine.execFirmwareDownload digest s
  | .trapEntry strand cause tval tcap => Sys2Proof.Machine.execTrapEntry strand cause tval tcap s
  | .interrupt pid code => Sys2Proof.Machine.execInterrupt pid code s
  | .slotmodeWrite core value => Sys2Proof.Machine.execSlotmodeWrite core value s
  | .slotmodeSwitch core => Sys2Proof.Machine.execSlotmodeSwitch core s
  | .l1cfgWrite core value => Sys2Proof.Machine.execL1cfgWrite core value s
  | .l1cfgReconfigure core => Sys2Proof.Machine.execL1cfgReconfigure core s
  | .mtbaseWrite pid value => Sys2Proof.Machine.execMtbaseWrite pid value s
  | .linkArrival core dir => Sys2Proof.Machine.execLinkArrival core dir s
  | .registerCacheFill strand line => Sys2Proof.Machine.execRegisterCacheFill strand line s
  | .recipeReplay strand cls reg => Sys2Proof.Machine.execRecipeReplay strand cls reg s
  | .syncTimeout strand => Sys2Proof.Machine.execSyncTimeout strand s
  | .lockhold core bank => Sys2Proof.Machine.execLockhold core bank s
  | .bankfmtApply strand => Sys2Proof.Machine.execBankfmtApply strand s
  | .matrixOpStart core => Sys2Proof.Machine.execMatrixOpStart core s
  | .matrixOpComplete core => Sys2Proof.Machine.execMatrixOpComplete core s
  | .copyStart core queue => Sys2Proof.Machine.execCopyStart core queue s
  | .copyUnitDeliver core queue => Sys2Proof.Machine.execCopyUnitDeliver core queue s
  | .copyComplete core queue => Sys2Proof.Machine.execCopyComplete core queue s
  | .cpfComplete core queue => Sys2Proof.Machine.execCpfComplete core queue s
  | .taskStart cluster slot strand => Sys2Proof.Machine.execTaskStart cluster slot strand s
  | .mailboxAccept pid => Sys2Proof.Machine.execMailboxAccept pid s
  | .kmuPassStart cluster => Sys2Proof.Machine.execKmuPassStart cluster s
  | .kmuPageFetch cluster => Sys2Proof.Machine.execKmuPageFetch cluster s
  | .kmuPageDeliver cluster core => Sys2Proof.Machine.execKmuPageDeliver cluster core s
  | .windowAdjust core marked => Sys2Proof.Machine.execWindowAdjust core marked s
  | .l2SliceRequest pid va pa write => Sys2Proof.Machine.execL2SliceRequest pid va pa write s
  | .pageTableWalk pid va write => Sys2Proof.Machine.execPageTableWalk pid va write s
  | .gddr7BlockWrite pid pa objid => Sys2Proof.Machine.execGddr7BlockWrite pid pa objid s
  | .gddr7BlockRead strand pa objid capReg => Sys2Proof.Machine.execGddr7BlockRead strand pa objid capReg s
  | .scrub die correctable => Sys2Proof.Machine.execScrub die correctable s
  | .uncorrectableError e => Sys2Proof.Machine.execUncorrectableError e s
  | .allasleep pid => Sys2Proof.Machine.execAllasleep pid s
  | .ofreeCommit strand => Sys2Proof.Machine.execOfreeCommit strand s
  | .sweepVisit pid loc => Sys2Proof.Machine.execSweepVisit pid loc s
  | .sweepComplete e => Sys2Proof.Machine.execSweepComplete e s
  | .partitionCreate d => Sys2Proof.Machine.execPartitionCreate d s
  | .partitionChange d destroy => Sys2Proof.Machine.execPartitionChange d destroy s
  | .partitionSwapOut pid => Sys2Proof.Machine.execPartitionSwapOut pid s
  | .partitionSwapIn pid => Sys2Proof.Machine.execPartitionSwapIn pid s
  | .thermalNotice cluster => Sys2Proof.Machine.execThermalNotice cluster s
  | .thermalStop cluster => Sys2Proof.Machine.execThermalStop cluster s
  | .powerLimitStep e => Sys2Proof.Machine.execPowerLimitStep e s
  | .hostWrite pa size value => Sys2Proof.Machine.execHostWrite pa size value s
  | .hostRead place size => Sys2Proof.Machine.execHostRead place size s
  | .cxlMemRequest offset write value => Sys2Proof.Machine.execCxlMemRequest offset write value s
  | .hostLinkTrain width rate cxl => Sys2Proof.Machine.execHostLinkTrain width rate cxl s
  | .mbctlWrite pid value => Sys2Proof.Machine.execMbctlWrite pid value s
  | .mbtailWrite pid value => Sys2Proof.Machine.execMbtailWrite pid value s
  | .intreq pid value => Sys2Proof.Machine.execIntreq pid value s
  | .pairctlWrite pid pf value => Sys2Proof.Machine.execPairctlWrite pid pf value s
  | .pairing pid peerNames => Sys2Proof.Machine.execPairing pid peerNames s
  | .hdmpartWrite pf value => Sys2Proof.Machine.execHdmpartWrite pf value s
  | .hdmpartApply => Sys2Proof.Machine.execHdmpartApply s
  | .coreoffWrite pid pf index value => Sys2Proof.Machine.execCoreoffWrite pid pf index value s
  | .dirtyctlWrite pid pf value => Sys2Proof.Machine.execDirtyctlWrite pid pf value s
  | .dirtydataRead pid pf => Sys2Proof.Machine.execDirtydataRead pid pf s
  | .migcmdStop pid pf => Sys2Proof.Machine.execMigcmdStop pid pf s
  | .migcmdSave pid pf => Sys2Proof.Machine.execMigcmdSave pid pf s
  | .migcmdRestore pid pf sameGeometry => Sys2Proof.Machine.execMigcmdRestore pid pf sameGeometry s
  | .migcmdResume pid pf => Sys2Proof.Machine.execMigcmdResume pid pf s
  | .evidenceRequest pid nonce => Sys2Proof.Machine.execEvidenceRequest pid nonce s
  | .keyImport pid epoch request => Sys2Proof.Machine.execKeyImport pid epoch request s
  | .measurementExtend pid index digest => Sys2Proof.Machine.execMeasurementExtend pid index digest s
  | .eventsClear pid value => Sys2Proof.Machine.execEventsClear pid value s
  | .adminRegWrite pid pf offset value => Sys2Proof.Machine.execAdminRegWrite pid pf offset value s
  | .seamTrain trained strap peerStrap => Sys2Proof.Machine.execSeamTrain trained strap peerStrap s
  | .flitReplay => Sys2Proof.Machine.execFlitReplay s
  | .seamRetrain => Sys2Proof.Machine.execSeamRetrain s
  | .seamDown => Sys2Proof.Machine.execSeamDown s
  | .peerStore die pa size value => Sys2Proof.Machine.execPeerStore die pa size value s
  | .peerLoad die pa size => Sys2Proof.Machine.execPeerLoad die pa size s
  | .peerAtomic pa wide op operand expected => Sys2Proof.Machine.execPeerAtomic pa wide op operand expected s
  | .peerAcknowledge strand => Sys2Proof.Machine.execPeerAcknowledge strand s
  | .peerWake pid strand => Sys2Proof.Machine.execPeerWake pid strand s
  | .peerOfreeUpdate pid objid => Sys2Proof.Machine.execPeerOfreeUpdate pid objid s
  | .peerInvalidation pid pa => Sys2Proof.Machine.execPeerInvalidation pid pa s
  | .lncpyUnitDeliver die pid => Sys2Proof.Machine.execLncpyUnitDeliver die pid s
  | .lnredChunkSend die pid => Sys2Proof.Machine.execLnredChunkSend die pid s
  | .lnredChunkCombine die pid fmt extent partner => Sys2Proof.Machine.execLnredChunkCombine die pid fmt extent partner s
  | .lnredPartnerHalt die pid lstat => Sys2Proof.Machine.execLnredPartnerHalt die pid lstat s
  | .lqComplete die pid => Sys2Proof.Machine.execLqComplete die pid s
  | .contextRestart strand => Sys2Proof.Machine.execContextRestart strand s
  | .powerGating pid on => Sys2Proof.Machine.execPowerGating pid on s

end Sys2Proof.Machine
end

