-- ==== Sys2Proof/Machine/Schedule.lean ====
section
/-! DEFINITION. Which agent moves next, and what it does (R217, R223, R227 to R232). A step is one outside event, one core's issue slot, or
the rest of a cycle: the engines, the dispatcher, the links, timeouts, results that become readable (log 3). -/

namespace Sys2Proof.Machine

/-! One instruction of a context. -/

/-- A lane operation performed as its constructor is. -/
def execLane (op : Fin 16) (a : C16Args) (s : State) : Answer :=
  match op with
  | 0 => execVaddF32C16 a s
  | 1 => execVsubF32C16 a s
  | 2 => execVmulF32C16 a s
  | 3 => execVminF32C16 a s
  | 4 => execVmaxF32C16 a s
  | 5 => execVaddS32C16 a s
  | 6 => execVsubS32C16 a s
  | 7 => execVandC16 a s
  | 8 => execVorC16 a s
  | 9 => execVxorC16 a s
  | 10 => execVmovC16 a s
  | 11 => execVnegF32C16 a s
  | 12 => execVabsF32C16 a s
  | 13 => execVmacF32C16 a s
  | 14 => execVsllS32C16 a s
  | _ => execVcvtBf16F32C16 a s

/-- What was fetched and decoded, performed: `exec` of it. -/
def execFetched (f : Fetched) (s : State) : Answer :=
  match f with
  | .whole i => exec i s
  | .lane op a => execLane op a s

/-- The instruction at the current strand's pc is fetched and performed. -/
def runFetch (s : State) : Answer :=
  match fetchMe s with
  | .ok (f, ls) => execFetched f (s.touchFetch ls)
  | .error (.trap t) => .next (s.faultMe t)
  | .error e => outcome s (.error e)

/-- The current strand's next instruction, or the next repetition of a REP under way. -/
def runNext (s : State) : Answer :=
  match s.me.rep with
  | some r => exec (.rep r.args) s
  | none => runFetch s

/-- The strand may issue in this cycle as far as its own state tells (R229): it runs, or waits for a condition that its instruction
tries. It issues nothing while an access of its own to an SO page of the peer card is not performed (R414). -/
def Strand.mayIssue (t : Strand) (cycle : Nat) : Bool :=
  !t.soPeer && decide (t.nextIssue ≤ cycle) && match t.status with
    | .running => true
    | .parked => t.wait.retries
    | .reaping => true
    | _ => false

/-- The strand's instruction issues, or not: one that is held before issue, or still waits for the same thing, leaves the slot to
another context (R229). -/
def tryIssue (n : Nat) (s : State) : Option Answer :=
  let t := s.strand n
  match runNext { s.setStrand n { t with status := .running } with cur := n, stalled := false } with
  | .next u => if u.stalled || (u.strand n).waitsOn t then none else some (.next u)
  | r => some r

/-- Strands of the partition that holds strand `n` may move: it runs, or it has ended and only its monitor is left (R399). -/
def partMoves (s : State) (n : Nat) : Bool :=
  match s.pidOf n with
  | some pid => decide ((s.part pid).run = .running) || decide ((s.part pid).run = .terminated)
  | none => false

/-- The context holds a strand that can come to an instruction boundary. -/
def Strand.live (t : Strand) : Bool :=
  !t.hold && match t.status with
    | .running => true
    | .parked => true
    | .asleep => true
    | .reaping => true
    | _ => false

/-! What happens at an instruction boundary without an issue (R217, R223, R231). -/

/-- The events that are still pending when one of items 1 to 9 of R217 is taken: a fault of the next instruction is not among them, since
it arises again. -/
def keepEvents (es : List Event) : List Event := es.filter fun e => decide (e.item < 10)

/-- A pending event taken at the strand's boundary (R215, R217, R220). One whose entry fails stays pending (R221); a fault of the parked
instruction itself ends its BSKIP (R223). -/
def takeEvent (n : Nat) (e : Event) (s : State) : State :=
  let s := s.retract n
  let t := s.strand n
  let rest := t.events.erase e
  s.enterTrap n (fun u => if e.item < 10 then { u with events := keepEvents rest } else { u with events := rest, bskip := false })
    e.int e.code e.tval e.tcap t.addr

/-- The addresses at which a breakpoint stops the current strand: that of the next instruction, and that of the instruction a REP
repeats (R106). -/
def stopAddrs (s : State) : List Word :=
  match fetchMe s with
  | .ok (.whole (.rep _), _) => [s.me.addr, s.me.addr + 4]
  | _ => [s.me.addr]

/-- The lowest breakpoint register of a strand that matches one of the addresses (R223). -/
def matchedBkpt (t : Strand) (addrs : List Word) : Option Nat :=
  (List.range 4).find? fun k =>
    let b := sget 0 t.bkpt k
    b.getLsbD 0 && addrs.contains (BitVec.ofNat 64 (b.toNat / 2 % 2 ^ 54 * 2))

/-- The strand is about to issue an instruction afresh, not the next repetition of a REP under way: it runs, or it is a REP that resumes
after a park at a repetition other than 0 (R106). -/
def issuesAfresh (n : Nat) (s : State) : Bool :=
  let t := s.strand n
  match t.status with
  | .running => decide (t.rep = none)
  | .parked => decide (t.repdone ≠ 0) && t.mayIssue s.cycle && (tryIssue n s).isSome
  | _ => false

/-- The breakpoint that a strand takes now (R223). -/
def breakpoint (n : Nat) (s : State) : Option Nat :=
  let t := s.strand n
  if t.bskip = false ∧ t.bkpt ≠ [] ∧ issuesAfresh n s = true then matchedBkpt t (stopAddrs { s with cur := n }) else none

/-- A breakpoint match taken. -/
def takeBkpt (n k : Nat) (s : State) : State :=
  s.enterTrap n (fun u => { u with events := keepEvents u.events }) false Cause.ebreak.code (BitVec.ofNat 64 (0x10000 + k)) 0
    (s.strand n).addr

/-- The strand's instruction is under way at another unit and has had an effect, so that no event may record it as TEPC (R215, log 93): the slices
act on a span, or the peer card drops an object that is no longer LIVE. -/
def Strand.committed (t : Strand) : Bool :=
  decide (t.status = .parked) && match t.wait with
    | .slices _ _ => true
    | .ofreePeer _ _ => true
    | _ => false

/-- A strand at an instruction boundary takes the first pending event that it may take, or else a breakpoint match. Neither uses an issue
slot (R231). -/
def boundaryTick (n : Nat) (s : State) : State :=
  let t := s.strand n
  if t.live = false ∨ t.committed = true ∨ partMoves s n = false ∨ (t.status = .running ∧ s.cycle < t.nextIssue) then s
  else match t.events.find? t.takes with
    | some e => takeEvent n e s
    | none => match breakpoint n s with
      | some k => takeBkpt n k s
      | none => s

/-! Readiness (R228, R229). -/

/-- The strand may issue as far as its own state and its partition tell; an event that it may take comes before its next instruction
(R217). -/
def offers (n : Nat) (s : State) : Bool :=
  (s.strand n).live && partMoves s n && (s.strand n).mayIssue s.cycle && !((s.strand n).events.any (s.strand n).takes)

/-- The strand is ready: it runs, or what it waits for has come. -/
def isReady (n : Nat) (s : State) : Bool :=
  offers n s && (decide ((s.strand n).status = .running) || (tryIssue n s).isSome)

/-- Whether strand `n` is ready at the start of a cycle. One whose register lines are not all present is not, and they are fetched (R229,
R247). -/
def judgeOne (n : Nat) (s : State) : State :=
  if isReady n s then
    let ls := nextLines n s
    if s.hasLines n ls then { s with ready := s.ready ++ [n] } else s.useLines n ls
  else s

/-- The strands that are ready at the start of a cycle (R228). -/
def judgeReady (s : State) : State := (s.strands.map (·.1)).foldl (fun s n => judgeOne n s) { s with ready := [] }

/-- What strand `n` does with an issue slot; none when it is not ready. -/
def tryContext (n : Nat) (s : State) : Option Answer :=
  if s.ready.contains n && offers n s then tryIssue n (s.useCaches n) else none

/-! One core's slot. -/

/-- The contexts that may use a core's slot in this cycle, in order (R228). -/
def slotOrder (s : State) (core : Nat) : List Nat :=
  let k := s.cycle % 16
  if (s.core core).slotFixed then [16 * core + k] else (List.range 16).map fun i => 16 * core + (k + i) % 16

/-- The first answer of a list of contexts. -/
def firstReady (ns : List Nat) (s : State) : Option Answer :=
  match ns with
  | [] => none
  | n :: rest =>
    match tryContext n s with
    | some r => some r
    | none => firstReady rest s

/-- A core's issue slot (R228): what its ready context does, or nothing. -/
def coreSlot (core : Nat) (s : State) : Answer := (firstReady (slotOrder s core) s).getD (.next s)

/-! The rest of a cycle. -/

/-- An operation for each of a list of keys in turn. -/
def eachKey (f : Nat → State → State) (ks : List Nat) (s : State) : State := ks.foldl (fun s k => f k s) s

/-- The keys of a table. -/
def keysOf {α : Type} (m : Sparse α) : List Nat := m.map (·.1)

/-- A core's copy queues, and an L1CFG write that waits. -/
def coreTick (core : Nat) (s : State) : State :=
  if clusterRuns s (core / 8) then l1cfgReconfigure core (eachKey (copyTick core) [0, 1, 2, 3] s) else s

/-- A cluster's dispatcher and KMU. -/
def clusterTick (cl : Nat) (s : State) : State := if clusterRuns s cl then kmuTick cl (taskTick cl s) else s

/-- A partition's mailbox, sweep, link queues, and completion words. -/
def partTick (pid : Nat) (s : State) : State :=
  if (s.part pid).run = .running then cwordTick pid (lqTick 1 pid (lqTick 0 pid (sweepTick pid (mailboxAccept pid s)))) else s

/-- What a strand waits for at the slices, or of the peer card's object caches. -/
def waitTick (n : Nat) (s : State) : State := ofreeTick n (slicesTick n s)

/-- The link buffers of a cluster, as core and direction. -/
def linksOf (s : State) (cl : Nat) : List (Nat × Nat) := (keysOf (s.cluster cl).links).map fun k => (8 * cl + k / 2, k % 2)

/-- An operation on every link buffer in use whose links move. -/
def eachLink (f : Nat → Nat → State → State) (s : State) : State :=
  (((keysOf s.clusters).filter (linksMove s)).flatMap (linksOf s)).foldl (fun s l => f l.1 l.2 s) s

/-- Full/empty requests of a core that time out in this cycle (R203). -/
def timeoutTick (core : Nat) (s : State) : State :=
  let late := (s.core core).reqs.filter fun r => decide (r.due ≤ s.cycle)
  late.foldl (fun s r => s.settleWord r.pa) (late.foldl (fun s r => s.timeoutReq core r) s)

/-- A core at the start of a cycle: SLOTMODE, g registers on their way, old values that no strand sees any more. -/
def coreStart (core : Nat) (s : State) : State :=
  let s := s.setCore core ((s.core core).slotSwitch s.cycle)
  let s := s.commitG core
  s.setCore core { s.core core with csrOld := (s.core core).csrOld.filter fun o => decide (s.cycle < o.expires) }

/-- Locks whose holders have issued 256 instructions are taken back (R265). -/
def lockTick (core : Nat) (s : State) : State := ((s.core core).locks.map (·.1)).foldl (fun s b => lockhold core b s) s

/-- Results that become readable in this cycle (R62). -/
def strandStart (n : Nat) (s : State) : State :=
  if (s.strand n).pend = [] then s else s.setStrand n ((s.strand n).commitUpTo s.cycle)

/-- The all-asleep tree of a partition, looked at once a cycle (R402, R403). -/
def asleepTick (pid : Nat) (s : State) : State :=
  let p := s.part pid
  if p.run ≠ .running then s
  else if treeHigh s pid then asleepRise pid s
  else if p.asleep then s.setPart pid { p with asleep := false } else s

/-- What the other agents do at the end of a cycle: results that requests and engines give come before what a link brings, which is therefore
second to them (R25). -/
def unitsTick (s : State) : State :=
  let s := eachKey coreTick (keysOf s.cores) s
  let s := eachKey dropTick ((keysOf s.strands).map coreOf).eraseDups s
  let s := eachKey clusterTick (keysOf s.clusters) s
  let s := eachKey partTick (keysOf s.parts) s
  let s := eachKey waitTick (keysOf s.strands) s
  let s := eachKey writesTick (keysOf s.dies) s
  let s := eachKey timeoutTick (keysOf s.cores) s
  let s := eachKey lockTick (keysOf s.cores) s
  eachLink linkTick s

/-- What comes into place at the start of a cycle. Link heads are marked by the registers as the cycle finds them, before results that
complete in it are in place, so that an arrival can be second to one (R25, R335, log 77). A matrix operation completes at the start of its
cycle: its strand takes part in that cycle's rotation (R281). -/
def cycleStart (s : State) : State :=
  let s := eachLink linkMark s
  let s := eachKey coreStart (keysOf s.cores) s
  let s := eachKey strandStart (keysOf s.strands) s
  let s := eachKey matTick (keysOf s.cores) s
  let s := judgeReady (eachKey boundaryTick (keysOf s.strands) s)
  eachKey asleepTick (keysOf s.parts) s

/-- The end of one cycle and the start of the next. A strand that a unit has started has its lines before the new cycle's strands are judged
(R231, R247). -/
def endCycle (s : State) : State :=
  let u := (unitsTick s).follow s
  let u : State := { u with cycle := u.cycle + 1, turn := 0 }
  (cycleStart u).follow u

/-- The register caches and strand areas follow what a move from `s` has done (R247). -/
def followed (s : State) (r : Answer) : Answer :=
  match r with
  | .next u => .next (u.follow s)
  | r => r

/-! The step. -/

/-- Cores of the package. -/
def coreCount : Nat := 256

/-- The slot of the core whose turn it is, or the end of the cycle. -/
def turnStep (s : State) : Answer :=
  if s.turn < coreCount then followed s (coreSlot s.turn { s with turn := s.turn + 1 }) else .next (endCycle s)

/-- What moves next, and the register caches with it: nothing once the package clocks have stopped, until a power-on reset (R456); the oldest outside event; else the
turn. -/
def nextMove (s : State) : Answer :=
  match s.agenda with
  | .powerOnReset :: rest => followed s (exec .powerOnReset { s with agenda := rest })
  | i :: rest => if s.clocksOff then .fault .clocksStopped else followed s (exec i { s with agenda := rest })
  | [] => if s.clocksOff then .fault .clocksStopped else turnStep s

end Sys2Proof.Machine
end

