-- ==== Sys2Proof/Machine/Boot.lean ====
section
/-! DEFINITION. A machine whose next step fetches a given word. From State.reset a program comes to run only after a firmware download,
the creation of a partition, host writes of its tables and code and a launch record (log 21); `placeWord` stands for all of that. -/

namespace Sys2Proof.Machine

/-- A code capability of one page at a virtual address. -/
def codeCap (base : Nat) : Cap :=
  ({ tag := true, base := base, gen := 0, objid := 0, fmt := 0, sparse := 0, layout := 0, perms := 0x2020, reach := 0, otype := 0,
     dims := [(4096, 1)] } : View).cap

/-- Partition 0 on cluster 0 with one page of 1 GiB, which maps virtual address 0 to the start of this card's GDDR7. -/
def loadedPart (p : Partition) (base : Nat) : Partition :=
  { p with present := true, run := .running, saved := none, otbase := BitVec.ofNat 64 base,
           desc := { p.desc with clusters := 1, ptroot := BitVec.ofNat 48 (base + 0x1000), n1 := 0 } }

/-- The strand at the start of a page of code. -/
def loadedStrand (t : Strand) : Strand :=
  { t with pcc := codeCap 0x2000, pc := 0, status := .running, wait := .none, hold := false, events := [],
           bkpt := [], pend := [], rep := none, nextIssue := 0, soPeer := false, parts := [] }

/-- `s` with a word where the context that owns core 0's slot fetches next, and that context's turn. -/
def placeWord (s : State) (w : Nat) : State :=
  let base := s.cardNo * 2 ^ 47
  let n := s.cycle % 16
  let s := s.setPart 0 (loadedPart (s.part 0) base)
  let s := s.setDie 0 { s.die 0 with regions := sset none (s.die 0).regions 0 (some { pid := 0, enc := false }) }
  let s := s.setCluster 0 { s.cluster 0 with coreoff := maskClear (s.cluster 0).coreoff 0 }
  let s := s.setStrand n (loadedStrand (s.strand n))
  let mem := memPut (memPut (memPut s.mem base 32 0) (base + 0x1000) 8 (base + 0x43)) (base + 0x2000) 4 w
  { s with mem := mem, clocksOff := false, agenda := [], turn := 0, ready := [n] }

end Sys2Proof.Machine
end

