-- ==== Sys2Proof/Machine/Step.lean ====
section
/-! DEFINITION. The step, and the placing of one instruction where it fetches. -/

namespace Sys2Proof.Machine

/-- One step of the package: what `nextMove` finds to do. -/
def step (s : State) : Host.Outcome State Fault Refusal := nextMove s

/-- `s` with an instruction of `nbits` bits stored where `step` fetches next. -/
def State.withFetchWord (s : State) (nbits w : Nat) : State := placeWord s (w % 2 ^ nbits)

end Sys2Proof.Machine
end

