-- ==== Sys2Proof/Safety.lean ====
section
/-! DEFINITION. The words that claims about a run use: when an instruction issues at once, what a strand is once its instruction has
completed, and what it is for a state to be in canonical form. -/

namespace Sys2Proof.Machine

/-- An instruction that reads `rs` and writes `ws` with latency `lat` issues now: its strand is Running; no write of it would come before an
earlier pending one (R66) and it names no v register that a queued MRDROW will write (R281); with SCHK set every source is readable (R64);
no register is dropped (R212); every source is full (R21). -/
abbrev Ready (rs ws : List RegRef) (lat : Nat) (s : State) : Prop :=
  s.me.status = .running
  ∧ (∀ r ∈ ws, s.me.pendingAfter r (s.cycle + lat) = false)
  ∧ (∀ r ∈ rs ++ ws, r.cls = .v → s.me.vbusy.getLsbD r.num = false)
  ∧ (s.me.schk = true → ∀ r ∈ rs, s.me.shortBy r s.cycle = 0)
  ∧ s.me.dropX = 0 ∧ s.me.dropV = 0
  ∧ ∀ r ∈ rs, s.me.isFull r = true

/-- The strand as an instruction issues that writes `ws`, with `sync` the register of a synchronised read: BSKIP is over (R223), the register
is emptied (R21), written registers are untied (R213). -/
def Strand.issued (t : Strand) (sync : Option RegRef) (ws : List RegRef) : Strand :=
  ws.foldl Strand.noteWrite
    (match sync with
      | some r => ({ t with bskip := false } : Strand).syncRead r
      | none => { t with bskip := false })

/-- The strand past an instruction of `len` bytes: its stall count runs (R61). -/
def Strand.past (t : Strand) (cycle : Nat) (sc : Fin 4) (len : Int) : Strand :=
  { t with pc := t.pc + len, nextIssue := cycle + gapOf sc, rep := none, wait := .none }

/-- The strand after a transfer to an offset of its PCC: its stall count runs. -/
def Strand.jumped (t : Strand) (cycle : Nat) (sc : Fin 4) (pc : Int) : Strand :=
  { t with pc := pc, nextIssue := cycle + gapOf sc, rep := none, wait := .none }

/-- The state after an instruction that changes nothing but its strand, which is `u` afterwards, and counts against a bank lock that the
strand holds (R265). -/
def State.retire (s : State) (u : Strand) : State := s.countIssue (s.setMe u)

/-- No bank of the core is locked by the strand, so that its instructions count against no lock. -/
abbrev State.lockFree (s : State) : Prop := ∀ e ∈ s.myCore.locks, ∀ l, e.2 = some l → l.holder ≠ s.cur

/-- Memory, the granule tags and the full/empty bits are in canonical form. -/
abbrev State.MemOk (s : State) : Prop := Memory.wf s.mem ∧ swf false s.tags = true ∧ swf 0 s.fe = true

/-- A strand's register tables are in canonical form. -/
abbrev Strand.RegsOk (t : Strand) : Prop := swf 0 t.x = true ∧ swf Cap.null t.c = true ∧ swf 0 t.v = true ∧ swf 0 t.p = true

/-- The tables inside strands, cores and clusters are in canonical form. -/
abbrev InnerOk (strands : Sparse Strand) (cores : Sparse Core) (clusters : Sparse Cluster) : Prop :=
  (∀ e ∈ strands, e.2.RegsOk)
  ∧ (∀ e ∈ cores, swf none e.2.locks = true ∧ swf 0 e.2.acc = true ∧ swf 0 e.2.active = true ∧ swf 0 e.2.shadow = true)
  ∧ ∀ e ∈ clusters, swf KvSlot.reset e.2.kv = true ∧ ∀ k ∈ e.2.merge, swf none k.2.win = true

/-- Every table of the package is in canonical form, those that a swap has saved too. -/
abbrev State.TablesOk (s : State) : Prop :=
  swf Strand.reset s.strands = true ∧ swf Core.reset s.cores = true ∧ swf Cluster.reset s.clusters = true
    ∧ swf Die.reset s.dies = true ∧ swf Partition.reset s.parts = true ∧ InnerOk s.strands s.cores s.clusters
    ∧ ∀ e ∈ s.parts, ∀ v, e.2.saved = some v → InnerOk v.strands v.cores v.clusters

/-- Every table and memory are in canonical form. -/
abbrev State.Canonical (s : State) : Prop := s.TablesOk ∧ s.MemOk

/-! Register instructions as the spec's tables give them. -/

/-- An instruction that changes nothing but its strand: what it reads and writes, the register of a synchronised read, its latency
(Table 2.2), stall count and length, and its effect on a strand at a cycle. -/
structure Plain where
  reads : List RegRef
  writes : List RegRef
  sync : Option RegRef := none
  lat : Nat
  sc : Fin 4
  len : Int := 4
  eff : Nat → Strand → Strand

/-- The instruction completes so in every state in which it issues at once. -/
def Completes (i : Instr) (p : Plain) : Prop :=
  ∀ s : State, Ready p.reads p.writes p.lat s →
    exec i s = .next (s.retire ((p.eff s.cycle (s.me.issued p.sync p.writes)).past s.cycle p.sc p.len))

/-- One result, in a register. -/
def result (lat : Nat) (r : RegRef) (v : Strand → RegVal) : Nat → Strand → Strand := fun cycle t => t.put cycle lat r.num (v t)

/-- Integer operation on two registers. -/
def intTwo (lat : Nat) (op : Word → Word → Word) (a : RArgs) : Plain :=
  { reads := [rx a.rs1, rx a.rs2], writes := [rx a.rd], sync := if a.sr then some (rx a.rs1) else none, lat := lat, sc := a.sc,
    eff := result lat (rx a.rd) fun t => .x (op (t.readX a.rs1) (t.readX a.rs2)) }

/-- The signed number closest to zero whose product with `b` comes no closer than one `b` to `a` (R89). -/
def quotient (a b : Int) : Int := if decide (0 ≤ a) = decide (0 ≤ b) then (a.natAbs / b.natAbs : Nat) else -(a.natAbs / b.natAbs : Nat)

/-- Tables 3.1, 3.2 and 3.3. -/
def integerTwo (i : Instr) : Option Plain :=
  match i with
  | .add a => some (intTwo 2 (fun x y => BitVec.ofNat 64 (x.toNat + y.toNat)) a)
  | .sub a => some (intTwo 2 (fun x y => BitVec.ofInt 64 (x.toInt - y.toInt)) a)
  | .and a => some (intTwo 2 (fun x y => x &&& y) a)
  | .or a => some (intTwo 2 (fun x y => x ||| y) a)
  | .xor a => some (intTwo 2 (fun x y => x ^^^ y) a)
  | .sll a => some (intTwo 2 (fun x y => BitVec.ofNat 64 (x.toNat * 2 ^ (y.toNat % 64))) a)
  | .srl a => some (intTwo 2 (fun x y => BitVec.ofNat 64 (x.toNat / 2 ^ (y.toNat % 64))) a)
  | .sra a => some (intTwo 2 (fun x y => BitVec.ofInt 64 (x.toInt / 2 ^ (y.toNat % 64))) a)
  | .rol a => some (intTwo 2 (fun x y => x <<< (y.toNat % 64) ||| x >>> (64 - y.toNat % 64)) a)
  | .ror a => some (intTwo 2 (fun x y => x >>> (y.toNat % 64) ||| x <<< (64 - y.toNat % 64)) a)
  | .slt a => some (intTwo 2 (fun x y => if x.toInt < y.toInt then 1 else 0) a)
  | .sltn a => some (intTwo 2 (fun x y => if x.toNat < y.toNat then 1 else 0) a)
  | .min a => some (intTwo 2 (fun x y => BitVec.ofInt 64 (Min.min x.toInt y.toInt)) a)
  | .max a => some (intTwo 2 (fun x y => BitVec.ofInt 64 (Max.max x.toInt y.toInt)) a)
  | .minn a => some (intTwo 2 (fun x y => BitVec.ofNat 64 (Min.min x.toNat y.toNat)) a)
  | .maxn a => some (intTwo 2 (fun x y => BitVec.ofNat 64 (Max.max x.toNat y.toNat)) a)
  | .mul a => some (intTwo 4 (fun x y => BitVec.ofInt 64 (x.toInt * y.toInt)) a)
  | .mulh a => some (intTwo 4 (fun x y => BitVec.ofInt 64 (x.toInt * y.toInt / 2 ^ 64)) a)
  | .mulhn a => some (intTwo 4 (fun x y => BitVec.ofNat 64 (x.toNat * y.toNat / 2 ^ 64)) a)
  | .div a => some (intTwo 0 (fun x y => if y = 0 then 0xFFFFFFFFFFFFFFFF else BitVec.ofInt 64 (quotient x.toInt y.toInt)) a)
  | .divn a => some (intTwo 0 (fun x y => if y = 0 then 0xFFFFFFFFFFFFFFFF else x / y) a)
  | .rem a => some (intTwo 0 (fun x y => if y = 0 then x else
      BitVec.ofInt 64 (x.toInt - quotient x.toInt y.toInt * y.toInt)) a)
  | .remn a => some (intTwo 0 (fun x y => if y = 0 then x else x % y) a)
  | _ => none

/-- Operation with an immediate, sign-extended (R90). -/
def intImm (op : Word → Int → Word) (a : IArgs) : Plain :=
  { reads := [rx a.rs1], writes := [rx a.rd], lat := 2, sc := a.sc,
    eff := result 2 (rx a.rd) fun t => .x (op (t.readX a.rs1) a.imm.toInt) }

/-- Table 3.4 and LUI (R91). -/
def integerImm (i : Instr) : Option Plain :=
  match i with
  | .addi a => some (intImm (fun x k => BitVec.ofInt 64 (x.toInt + k)) a)
  | .andi a => some (intImm (fun x k => x &&& BitVec.ofInt 64 k) a)
  | .ori a => some (intImm (fun x k => x ||| BitVec.ofInt 64 k) a)
  | .xori a => some (intImm (fun x k => x ^^^ BitVec.ofInt 64 k) a)
  | .slli a => some (intImm (fun x k => BitVec.ofNat 64 (x.toNat * 2 ^ (k % 64).toNat)) a)
  | .srli a => some (intImm (fun x k => BitVec.ofNat 64 (x.toNat / 2 ^ (k % 64).toNat)) a)
  | .srai a => some (intImm (fun x k => BitVec.ofInt 64 (x.toInt / 2 ^ (k % 64).toNat)) a)
  | .slti a => some (intImm (fun x k => if x.toInt < k then 1 else 0) a)
  | .lui a => some { reads := [], writes := [rx a.rd], lat := 2, sc := a.sc,
                     eff := result 2 (rx a.rd) fun _ => .x (BitVec.ofInt 64 (a.imm.toInt * 2 ^ 10)) }
  | _ => none

/-! Scalar floating point (Table 3.5, R98). -/

/-- A result with its flags, zero-extended into x[rd]; the flags merge into FFLAGS, for x0 too (R92, R97). -/
def floatResult (lat : Nat) (rd : Reg) (r : Strand → Flagged Nat) : Nat → Strand → Strand := fun cycle t =>
  { t.put cycle lat rd (.x (BitVec.ofNat 64 (r t).1)) with fflags := t.fflags ||| (r t).2 }

/-- A scalar floating-point instruction: `op` is given the format, the rounding mode in FRM and the encodings in x[rs1], x[rs2], x[rd]. -/
def floatTwo (lat : Nat) (op : FloatFmt → Rm → Nat → Nat → Nat → Flagged Nat) (reads : List Reg) (a : FArgs) : Plain :=
  let f := fmtOf a.ty
  { reads := reads.map (fun r : Reg => rx r.val), writes := [rx a.rd], sync := if a.sr then some (rx a.rs1) else none, lat := lat, sc := a.sc,
    eff := floatResult lat a.rd fun t =>
      op f t.rm ((t.readX a.rs1).toNat % 2 ^ f.width) ((t.readX a.rs2).toNat % 2 ^ f.width) ((t.readX a.rd).toNat % 2 ^ f.width) }

/-- The exact result of an operation on decoded numbers, rounded once, with the flags of every part (R93, R123). -/
def rounded (f : FloatFmt) (rm : Rm) (din : BitVec 8) (v : Flagged Num) : Flagged Nat :=
  let r := f.round v.1 rm false
  (r.1, din ||| v.2 ||| r.2)

/-- Table 3.5. -/
def floatScalar (i : Instr) : Option Plain :=
  let two (op : Rm → Num → Num → Flagged Num) (f : FloatFmt) (rm : Rm) (x y _z : Nat) : Flagged Nat :=
    rounded f rm ((f.decode x).2 ||| (f.decode y).2) (op rm (f.decode x).1 (f.decode y).1)
  let truth (r : Flagged Bool) : Flagged Nat := (if r.1 then 1 else 0, r.2)
  match i with
  | .fadd a => some (floatTwo 4 (two fun rm x y => x.add y rm) [a.rs1, a.rs2] a)
  | .fsub a => some (floatTwo 4 (two fun rm x y => x.add y.neg rm) [a.rs1, a.rs2] a)
  | .fmul a => some (floatTwo 4 (two fun _ x y => x.mul y) [a.rs1, a.rs2] a)
  | .ffma a => some (floatTwo 4 (fun f rm x y z =>
      rounded f rm ((f.decode x).2 ||| (f.decode y).2 ||| (f.decode z).2) ((f.decode x).1.fma (f.decode y).1 (f.decode z).1 rm))
      [a.rs1, a.rs2, a.rd] a)
  | .fdiv a => some (floatTwo 0 (two fun _ x y => x.div y) [a.rs1, a.rs2] a)
  | .fsqrt a => some (floatTwo 0 (fun f rm x _ _ => rounded f rm (f.decode x).2 (f.decode x).1.sqrt) [a.rs1] a)
  | .fmin a => some (floatTwo 4 (fun f _ x y _ => f.pick false x y) [a.rs1, a.rs2] a)
  | .fmax a => some (floatTwo 4 (fun f _ x y _ => f.pick true x y) [a.rs1, a.rs2] a)
  | .fcmpEq a => some (floatTwo 4 (fun f _ x y _ => truth (f.test .eq x y)) [a.rs1, a.rs2] a)
  | .fcmpLt a => some (floatTwo 4 (fun f _ x y _ => truth (f.test .lt x y)) [a.rs1, a.rs2] a)
  | .fcmpLe a => some (floatTwo 4 (fun f _ x y _ => truth (f.test .le x y)) [a.rs1, a.rs2] a)
  | .fcvt a => some
    { reads := [rx a.rs1], writes := [rx a.rd], sync := if a.sr then some (rx a.rs1) else none, lat := 4, sc := a.sc,
      eff := floatResult 4 a.rd fun t =>
        let src := cvtFmt a.src
        let v := src.decode ((t.readX a.rs1).toNat % 2 ^ src.width)
        let r := (cvtFmt a.dst).round v.1 (rmOf a.rm.val) a.sat
        (r.1, v.2 ||| r.2) }
  | _ => none

/-! Vector arithmetic (chapter 5). -/

/-- The predicate with `g i` in all bits of element `i` of `w` bytes, for `n` elements, and zeros above (R166). -/
def spread (w n : Nat) (g : Nat → Bool) : Pred := BitVec.ofNat 128 (((List.range n).map fun i => (g i).toNat * (2 ^ w - 1) * 2 ^ (w * i)).sum)

/-- The bytes of the inactive ones of `n` elements of `w` bytes: a merging instruction leaves them in the register as they are when its result
is in place (R144). -/
def inactiveBytes (w n : Nat) (p : Pred) : Pred := spread w n fun i => !(p.getLsbD (w * i))

/-- A merging vector result; its flags merge into FFLAGS (R147). -/
def mergedResult (lat : Nat) (rd : Reg) (keep : Strand → Pred) (r : Strand → Flagged Vec) : Nat → Strand → Strand := fun cycle t =>
  { t.put cycle lat rd (.m (r t).1 (keep t)) with fflags := t.fflags ||| (r t).2 }

/-- A vector result; its flags merge into FFLAGS (R147). -/
def vecResult (lat : Nat) (rd : Reg) (r : Strand → Flagged Vec) : Nat → Strand → Strand := fun cycle t =>
  { t.put cycle lat rd (.v (r t).1) with fflags := t.fflags ||| (r t).2 }

/-- A merging vector instruction on elements of `w` bytes (R144): `f` gives the value and flags of each active element. -/
def merging (lat w : Nat) (vd : Reg) (pg : Fin 8) (reads : List RegRef) (sc : Fin 4) (f : Strand → Nat → Flagged Nat) : Plain :=
  { reads := reads ++ [rp pg], writes := [rv vd], lat := lat, sc := sc,
    eff := mergedResult lat vd (fun t => inactiveBytes w (128 / w) (t.readP pg)) fun t =>
      lanes w (128 / w) (t.readP pg) (t.readV vd) (f t) }

/-- The element operations of R150 on the operands a, b and c: by the type in f2, a float operation or an integer one modulo 2^32. -/
def typed (f2 : Fin 4) (fop : FloatFmt → Rm → Nat → Nat → Nat → Flagged Nat) (iop : Int → Int → Int → Int) (a b c : Reg) (t : Strand)
    (i : Nat) : Flagged Nat :=
  let w := (vecFmt f2).bytes
  let x := elemOf (t.readV a) w i
  let y := elemOf (t.readV b) w i
  let z := elemOf (t.readV c) w i
  match vecFmt f2 with
  | .float f => fop f t.rm x y z
  | .int _ _ => ((iop (signedOf 32 x) (signedOf 32 y) (signedOf 32 z) % 2 ^ 32).toNat, 0)

/-- A binary or ternary instruction of Table 5.2. -/
def vecTwo (lat : Nat) (readsVd : Bool) (fop : FloatFmt → Rm → Nat → Nat → Nat → Flagged Nat) (iop : Int → Int → Int → Int) (a : VArgs) :
    Plain :=
  merging lat (vecFmt a.f2).bytes a.vd a.pg ([rv a.vs1, rv a.vs2] ++ if readsVd then [rv a.vd] else []) a.sc
    (typed a.f2 fop iop a.vs1 a.vs2 a.vd)

/-- A unary instruction of Table 5.3. -/
def vecOne (lat : Nat) (fop : FloatFmt → Rm → Nat → Flagged Nat) (iop : Int → Int) (a : VuArgs) : Plain :=
  merging lat (vecFmt a.f2).bytes a.vd a.pg [rv a.vs1] a.sc
    (typed a.f2 (fun f rm x _ _ => fop f rm x) (fun x _ _ => iop x) a.vs1 a.vs1 a.vd)

/-- A sign operation of R153 on an encoding, the sign bit as `flip` makes it. -/
def signed (flip : Bool → Bool) (f : FloatFmt) (_rm : Rm) (x : Nat) : Flagged Nat :=
  if (f.decode x).1 = .nan then (f.nanEnc, flNANI) else (x % 2 ^ (f.width - 1) + f.signBit (flip (bitOf x (f.width - 1))), 0)

/-- Tables 5.2 and 5.3. -/
def vectorArith (i : Instr) : Option Plain :=
  let two (op : Rm → Num → Num → Flagged Num) (f : FloatFmt) (rm : Rm) (x y _z : Nat) : Flagged Nat :=
    rounded f rm ((f.decode x).2 ||| (f.decode y).2) (op rm (f.decode x).1 (f.decode y).1)
  let three (op : Rm → Num → Num → Num → Flagged Num) (f : FloatFmt) (rm : Rm) (x y z : Nat) : Flagged Nat :=
    rounded f rm ((f.decode x).2 ||| (f.decode y).2 ||| (f.decode z).2) (op rm (f.decode x).1 (f.decode y).1 (f.decode z).1)
  let one (op : Num → Flagged Num) (f : FloatFmt) (rm : Rm) (x : Nat) : Flagged Nat := rounded f rm (f.decode x).2 (op (f.decode x).1)
  let nearest (op : Num → Flagged Num) (f : FloatFmt) (_rm : Rm) (x : Nat) : Flagged Nat :=
    rounded f .rne (f.decode x).2 (op (f.decode x).1)
  match i with
  | .vadd a => some (vecTwo 6 false (two fun rm x y => x.add y rm) (fun x y _ => x + y) a)
  | .vsub a => some (vecTwo 6 false (two fun rm x y => x.add y.neg rm) (fun x y _ => x - y) a)
  | .vmul a => some (vecTwo 6 false (two fun _ x y => x.mul y) (fun x y _ => x * y) a)
  | .vfma a => if a.f2 = 3 then none else some (vecTwo 6 true (three fun rm x y z => x.fma y z rm) (fun _ _ z => z) a)
  | .vfms a => if a.f2 = 3 then none else some (vecTwo 6 true (three fun rm x y z => x.neg.fma y z rm) (fun _ _ z => z) a)
  | .vdiv a => if a.f2 = 3 then none else some (vecTwo 0 false (two fun _ x y => x.div y) (fun _ _ z => z) a)
  | .vmin a => some (vecTwo 6 false (fun f _ x y _ => f.pick false x y) (fun x y _ => Min.min x y) a)
  | .vmax a => some (vecTwo 6 false (fun f _ x y _ => f.pick true x y) (fun x y _ => Max.max x y) a)
  | .vsqrt a => if a.f2 = 3 then none else some (vecOne 0 (one Num.sqrt) id a)
  | .vrsq a => if a.f2 = 3 then none else some (vecOne 0 (one Num.rsqrt) id a)
  | .vrcp a => if a.f2 = 3 then none else some (vecOne 0 (one fun x => (Num.fin false 1 0).div x) id a)
  | .vabs a => some (vecOne 6 (signed fun _ => false) (fun x => x.natAbs) a)
  | .vneg a => some (vecOne 6 (signed fun b => !b) (fun x => -x) a)
  | .vexp a => if a.f2 = 0 then some (vecOne 10 (nearest Num.exp) id a) else none
  | .vexp2 a => if a.f2 = 0 then some (vecOne 10 (nearest Num.exp2) id a) else none
  | .vlog2 a => if a.f2 = 0 then some (vecOne 10 (nearest Num.log2) id a) else none
  | _ => none

/-- A merging vector instruction without flags. -/
def merged (w : Nat) (vd : Reg) (pg : Fin 8) (reads : List RegRef) (sc : Fin 4) (f : Strand → Nat → Nat) : Plain :=
  { reads := reads ++ [rp pg], writes := [rv vd], lat := 6, sc := sc,
    eff := result 6 (rv vd) fun t =>
      .m (lanes w (128 / w) (t.readP pg) (t.readV vd) fun i => (f t i, 0)).1 (inactiveBytes w (128 / w) (t.readP pg)) }

/-- The vector instructions of R154 to R157, R159, R164, R165 (Table 5.8). -/
def vectorMove (i : Instr) : Option Plain :=
  let byElem (w : Nat) (op : Nat → Nat → Nat) (a : VfArgs) : Plain :=
    merged w a.vd a.pg [rv a.vs1, rv a.vs2] a.sc fun t i => op (elemOf (t.readV a.vs1) w i) (elemOf (t.readV a.vs2) w i)
  let cvt (sat : Bool) (a : VArgs) : Plain :=
    let f := pairFmts a.vs2
    { reads := [rv a.vs1, rp a.pg], writes := [rv a.vd], lat := 4, sc := a.sc,
      eff :=
        let n := 128 / Max.max f.2.bytes f.1.bytes
        mergedResult 4 a.vd (fun t => inactiveBytes f.1.bytes n (t.readP a.pg)) fun t =>
          lanes f.1.bytes n (t.readP a.pg) (t.readV a.vd) fun i =>
            convert f.2 f.1 (rmOf a.f2.val) sat (elemOf (t.readV a.vs1) f.2.bytes i) }
  match i with
  | .vdot a => if a.f2 = 0 then none else
      some (merging 6 4 a.vd a.pg [rv a.vs1, rv a.vs2, rv a.vd] a.sc fun t i =>
        dotElem a.f2 t.rm (elemOf (t.readV a.vs1) 4 i) (elemOf (t.readV a.vs2) 4 i) (elemOf (t.readV a.vd) 4 i))
  | .vsll a => some (byElem 4 (fun x y => x * 2 ^ (y % 32) % 2 ^ 32) a)
  | .vsrl a => some (byElem 4 (fun x y => x / 2 ^ (y % 32)) a)
  | .vsra a => some (byElem 4 (fun x y => (signedOf 32 x / 2 ^ (y % 32) % 2 ^ 32).toNat) a)
  | .vand a => some (byElem 1 (fun x y => x &&& y) a)
  | .vor a => some (byElem 1 (fun x y => x ||| y) a)
  | .vxor a => some (byElem 1 (fun x y => x ^^^ y) a)
  | .vsel a => some
    { reads := [rv a.vs1, rv a.vs2, rp a.pg], writes := [rv a.vd], lat := 6, sc := a.sc,
      eff := result 6 (rv a.vd) fun t => .v (lanes 1 128 (t.readP a.pg) (t.readV a.vs2) fun i => (elemOf (t.readV a.vs1) 1 i, 0)).1 }
  | .vcvt a => some (cvt false a)
  | .vcvtSat a => some (cvt true a)
  | .vperm a =>
      let w := 2 ^ a.f2.val
      some (merged w a.vd a.pg [rv a.vs1, rv a.vs2] a.sc fun t i =>
        let k := elemOf (t.readV a.vs2) w i
        if k < 128 / w then elemOf (t.readV a.vs1) w k else 0)
  | .vslide a =>
      let w := 2 ^ a.f2.val
      some (merged w a.vd a.pg [rx a.vs1, rv a.vd] a.sc fun t i =>
        let k := (t.readX a.vs1).toInt
        if k ≤ i ∧ (i : Int) - k < (128 / w : Nat) then elemOf (t.readV a.vd) w ((i : Int) - k).toNat else 0)
  | .vbcast a => some (merged (2 ^ a.f2.val) a.vd a.pg [rx a.vs1] a.sc fun t _ => (t.readX a.vs1).toNat)
  | .viota a => some (merged (2 ^ a.f2.val) a.vd a.pg [] a.sc fun _ i => i)
  | .vmovx a =>
      let w := 2 ^ a.f2.val
      some { reads := [rv a.vs1, rp a.pg], writes := [rx a.vd], lat := 6, sc := a.sc,
             eff := result 6 (rx a.vd) fun t => .x (BitVec.ofNat 64
               (match (List.range (128 / w)).find? (fun i => (t.readP a.pg).getLsbD (w * i)) with
                 | some i => elemOf (t.readV a.vs1) w i
                 | none => 0)) }
  | .vcmp a =>
      let w := (vecFmt a.f2).bytes
      let r (t : Strand) (i : Nat) : Flagged Bool :=
        cmpElem (vecFmt a.f2) (condOf (a.vd.val / 8)) (elemOf (t.readV a.vs1) w i) (elemOf (t.readV a.vs2) w i)
      some { reads := [rv a.vs1, rv a.vs2, rp a.pg], writes := [rp (a.vd.val % 8)], lat := 6, sc := a.sc,
             eff := fun cycle t =>
               { t.put cycle 6 (a.vd.val % 8) (.p (spread w (128 / w) fun i => (t.readP a.pg).getLsbD (w * i) && (r t i).1)) with
                 fflags := t.fflags ||| laneFlags (128 / w) fun i => if (t.readP a.pg).getLsbD (w * i) then (r t i).2 else 0 } }
  | .vred a => if 2 < a.vs2.val then none else
      some { reads := [rv a.vs1, rp a.pg], writes := [rv a.vd], lat := 10, sc := a.sc,
             eff := vecResult 10 a.vd fun t =>
               let p := t.readP a.pg
               let v := t.readV a.vs1
               let r : Flagged Nat := match vecFmt a.f2, a.vs2.val with
                 | .float f, 0 => redAddFloat f t.rm p v
                 | .float f, k => redPickFloat (k == 2) f p v
                 | .int _ _, k => (redInt k p v, 0)
               (BitVec.ofNat 1024 r.1, r.2) }
  | _ => none

/-- Table 5.9. -/
def predicate (i : Instr) : Option Plain :=
  let logic (op : Pred → Pred → Pred) (reads : List RegRef) (a : VpArgs) : Plain :=
    { reads := reads, writes := [rp a.vd], lat := 2, sc := a.sc,
      eff := result 2 (rp a.vd) fun t => .p (op (t.readP a.vs1) (t.readP a.vs2)) }
  match i with
  | .pand a => some (logic (fun x y => x &&& y) [rp a.vs1, rp a.vs2] a)
  | .por a => some (logic (fun x y => x ||| y) [rp a.vs1, rp a.vs2] a)
  | .pxor a => some (logic (fun x y => x ^^^ y) [rp a.vs1, rp a.vs2] a)
  | .pnot a => some (logic (fun x _ => ~~~x) [rp a.vs1] a)
  | .pfirst a =>
      let w := 2 ^ a.f2.val
      some { reads := [rp a.vs1], writes := [rp a.vd], lat := 2, sc := a.sc,
             eff := result 2 (rp a.vd) fun t => .p (spread w (128 / w) fun i =>
               (t.readP a.vs1).getLsbD (w * i) && (List.range i).all fun j => !((t.readP a.vs1).getLsbD (w * j))) }
  | .pcnt a =>
      let w := 2 ^ a.f2.val
      some { reads := [rp a.vs1], writes := [rx a.vd], lat := 2, sc := a.sc,
             eff := result 2 (rx a.vd) fun t => .x (BitVec.ofNat 64
               ((List.range (128 / w)).countP fun i => (t.readP a.vs1).getLsbD (w * i))) }
  | .vwhile a =>
      let w := 2 ^ a.f2.val
      some { reads := [rx a.vs1, rx a.vs2], writes := [rp a.vd], lat := 2, sc := a.sc,
             eff := result 2 (rp a.vd) fun t => .p (spread w (128 / w) fun i =>
               decide ((t.readX a.vs1).toNat + i < (t.readX a.vs2).toNat)) }
  | _ => none

/-- Counts of bits (Table 3.2). -/
def integerCount (i : Instr) : Option Plain :=
  let one (f : Word → Nat) (a : RArgs) : Plain :=
    { reads := [rx a.rs1], writes := [rx a.rd], sync := if a.sr then some (rx a.rs1) else none, lat := 2, sc := a.sc,
      eff := result 2 (rx a.rd) fun t => .x (BitVec.ofNat 64 (f (t.readX a.rs1))) }
  match i with
  | .clz a => some (one (fun x => if x = 0 then 64 else 63 - Nat.log2 x.toNat) a)
  | .ctz a => some (one (fun x => ((List.range 64).find? fun k => x.getLsbD k).getD 64) a)
  | .popc a => some (one (fun x => (List.range 64).countP fun k => x.getLsbD k) a)
  | _ => none

/-- Queries, moves and clears of capabilities (R175 to R177). -/
def capabilityQuery (i : Instr) : Option Plain :=
  let sync (a : RArgs) : Option RegRef := if a.sr then some (rc a.rs1) else none
  let toX (reads : List RegRef) (v : Strand → Word) (a : RArgs) : Plain :=
    { reads := reads, writes := [rx a.rd], sync := sync a, lat := 3, sc := a.sc, eff := result 3 (rx a.rd) fun t => .x (v t) }
  let toC (v : Strand → Cap) (a : RArgs) : Plain :=
    { reads := [rc a.rs1], writes := [rc a.rd], sync := sync a, lat := 3, sc := a.sc, eff := result 3 (rc a.rd) fun t => .c (v t) }
  match i with
  | .cmove a => some (toC (fun t => t.readC a.rs1) a)
  | .cclear a => some (toC (fun t => { tag := false, bits := (t.readC a.rs1).bits }) a)
  | .cgetf a => some (toX [rc a.rs1, rx a.rs2] (fun t => getField (t.readC a.rs1) (t.readX a.rs2).toNat) a)
  | .ctest a => some (toX [rc a.rs1] (fun t =>
      (if (t.readC a.rs1).tag then 1 else 0) + if (t.readC a.rs1).otype ≠ 0 then 2 else 0) a)
  | .csubset a => some (toX [rc a.rs1, rc a.rs2] (fun t => if capWithin (t.readC a.rs1) (t.readC a.rs2) then 1 else 0) a)
  | .ceq a => some (toX [rc a.rs1, rc a.rs2] (fun t => if t.readC a.rs1 = t.readC a.rs2 then 1 else 0) a)
  | _ => none

/-! Memory access by a strand (R38 to R43, R185 to R193, Table 10.3). -/

/-- Checks 1 to 5 of Table 1.7 pass on an unsealed live capability for the permissions `want` and a shape that the class accepts. -/
abbrev Allowed (s : State) (c : Cap) (want : BitVec 14) (shape : Bool) : Prop :=
  c.tag = true ∧ c.otype = 0 ∧ staleRecord s s.myPart c = none ∧ want &&& ~~~c.perms = 0 ∧ c.codesOk = true ∧ sparseOk c.view = true
    ∧ shape = true

/-- The element access class of Table 6.6: class D, a format with scalar access. -/
def elementShape (c : Cap) : Bool := decide (c.sparse = 0) && fmtScalar c.fmt

/-- A byte run (R40). -/
def runShape (c : Cap) : Bool :=
  decide (c.rank = 1) && decide (c.stride 0 = 1) && decide (c.sparse = 0) && decide (c.fmt ≠ 0x18)

/-- An index vector is in bounds (R38): missing indices count as zero. -/
abbrev InBounds (c : Cap) (idx : List Int) : Prop := ∀ k < c.rank, 0 ≤ idx.getD k 0 ∧ idx.getD k 0 < c.extent k

/-- ElemAddr of R38 for a format of whole bytes. -/
def elementAddr (c : Cap) (idx : List Int) : Int :=
  c.base + (esize c.fmt : Int) * ((List.range c.rank).map fun k => idx.getD k 0 * c.stride k).sum

/-- The bank checks of Table 10.3 pass at physical address `pa`: the bank, where it lies in one, belongs to L1, is unsealed, has no
format other than `fmt`, and is locked by no other strand. `fmt` is none in byte mode. -/
def bankOpen (s : State) (fmt : Option Nat) (pa : Nat) : Bool :=
  match s.place pa with
  | .bank core b =>
      decide (b < l1First (s.core core).nb) && !((s.core core).bfmtOf b).getLsbD 6
        && (match fmt with
          | some f => decide (((s.core core).bfmtOf b).toNat % 64 = 0) || decide (((s.core core).bfmtOf b).toNat % 64 = f)
          | none => true)
        && (match (s.core core).lockOf b with
          | some l => decide (l.holder = s.cur)
          | none => true)
  | _ => true

/-- What a strand's access of a mapped element meets beyond the banks: on a page with INTEG a read that the L1 does not serve finds its
block sound, and the request carries the OBJID (R451); while the Seam retrains nothing goes to the peer card (R459). -/
def served (s : State) (use : Use) (n objid : Nat) (e : Elem) : Bool :=
  match s.place e.pa with
  | .gddr _ =>
    if e.leaf.integ then
      e.integ.isSome && decide (e.integ = s.integFor (some s.cur) use n e.pa objid)
    else decide (e.integ = none)
  | .peer => decide (s.seam ≠ .retraining) && decide (e.integ = none)
  | _ => decide (e.integ = none)

/-- Checks 9 to 11 and the bank checks pass at address `addr` for an access of `n` bytes by a capability for object `objid`, which lies at
`e.pa` on the page of `e.leaf`. -/
abbrev Reached (s : State) (use : Use) (n : Nat) (fmt : Option Nat) (objid : Nat) (addr : Int) (e : Elem) : Prop :=
  addr % n = 0 ∧ 0 ≤ addr ∧ e.va = addr.toNat ∧ translate s (s.pidOf s.cur) addr.toNat use = .ok (e.leaf, e.pa)
    ∧ bankOpen s fmt e.pa = true ∧ served s use n objid e = true

/-- The state after an instruction that leaves the machine as `s1` but for its strand, which is `u` afterwards. -/
def State.retireIn (s s1 : State) (u : Strand) : State := s.countIssue (s1.setMe u)

/-- The state after an instruction whose stores leave the machine as `s1`: while one to an SO page is not performed at FABRIC its strand, `u`
otherwise, issues nothing, and its stores to later pages wait (R414, R418). -/
def State.storedIn (s s1 : State) (u : Strand) : State := s.retireIn s1 { u with soPeer := s1.me.soPeer, parts := s1.me.parts }

/-- The current strand's translation of the page of an address: its Accessed and Dirty bits, and the TLB of the core (R389, R433). -/
def State.translated (s : State) (ad : Int) (use : Use) : State :=
  match translate s (s.pidOf s.cur) ad.toNat use with
  | .ok (l, _) => s.touchLeaf (.core (coreOf s.cur)) ((s.pidOf s.cur).getD 0) ad.toNat l use.write
  | .error _ => s

/-- The byte-mode loads (R188): size, and whether the value is sign-extended. -/
def byteLoad (i : Instr) : Option (IArgs × Nat × Bool) :=
  match i with
  | .lb a => some (a, 1, true)
  | .lh a => some (a, 2, true)
  | .lw a => some (a, 4, true)
  | .ld a => some (a, 8, true)
  | .lbn a => some (a, 1, false)
  | .lhn a => some (a, 2, false)
  | .lwn a => some (a, 4, false)
  | _ => none

/-- The byte-mode stores. -/
def byteStore (i : Instr) : Option (SArgs × Nat) :=
  match i with
  | .sb a => some (a, 1)
  | .sh a => some (a, 2)
  | .sw a => some (a, 4)
  | .sd a => some (a, 8)
  | _ => none

/-- A number of `n` bytes extended to 64 bits. -/
def extended (n : Nat) (signed : Bool) (v : Nat) : Word :=
  if signed ∧ 2 ^ (8 * n - 1) ≤ v then BitVec.ofInt 64 ((v : Int) - 2 ^ (8 * n)) else BitVec.ofNat 64 v

/-- A byte-mode access by capability register `reg` passes every check and reaches `e` (R188). -/
abbrev ByteReach (s : State) (reg : Nat) (imm : BitVec 10) (n : Nat) (use : Use) (e : Elem) : Prop :=
  let c := s.me.readC reg
  let o := imm.toInt * n
  Allowed s c (if use.write then 0x0002 else 0x0001) (runShape c) ∧ 0 ≤ o ∧ o + n ≤ (c.extent 0 * esize c.fmt : Nat)
    ∧ Reached s use n none c.objid (c.base + o) e

/-- An element access by capability register `reg` with an index vector passes every check and reaches `e` (R189, R191). -/
abbrev ElemReach (s : State) (reg : Nat) (idx : List Int) (use : Use) (e : Elem) : Prop :=
  let c := s.me.readC reg
  Allowed s c (if use.write then 0x0002 else 0x0001) (elementShape c) ∧ InBounds c idx
    ∧ Reached s use (esize c.fmt) (some c.fmt) c.objid (elementAddr c idx) e

/-- A byte-mode or element-mode load of an x register: its destination, what it reads, its size and whether it sign-extends. -/
def numberLoad (s : State) (i : Instr) : Option (Fin 32 × List RegRef × Nat × Bool) :=
  match i with
  | .lde a => let fmt := (s.me.readC a.cs).fmt
    some (a.rd, [rc a.cs, rx a.xi, rx a.xj], esize fmt, fmtSigned fmt)
  | i => (byteLoad i).map fun (a, n, g) => (a.rd, [rc a.rs1], n, g)

/-- A byte-mode or element-mode store of an x register: the register, what it reads and its size. -/
def numberStore (s : State) (i : Instr) : Option (Fin 32 × List RegRef × Nat) :=
  match i with
  | .ste a => some (a.rd, [rc a.cs, rx a.xi, rx a.xj, rx a.rd], esize (s.me.readC a.cs).fmt)
  | i => (byteStore i).map fun (a, n) => (a.rs2, [rc a.rs1, rx a.rs2], n)

/-- Such an access passes every check and reaches `e`. -/
def NumberReach (s : State) (i : Instr) (use : Use) (e : Elem) : Prop :=
  match i with
  | .lde a => ElemReach s a.cs [(s.me.readX a.xi).toInt, (s.me.readX a.xj).toInt] use e
  | .ste a => ElemReach s a.cs [(s.me.readX a.xi).toInt, (s.me.readX a.xj).toInt] use e
  | i => (∀ a n g, byteLoad i = some (a, n, g) → ByteReach s a.rs1 a.imm n use e)
    ∧ ∀ a n, byteStore i = some (a, n) → ByteReach s a.rs1 a.imm n use e

/-- An access of the elements `es` changed no byte that is not `wrote`, no tag that is not `retagged` (in both, the Accessed and Dirty bits of
the page entries apart: R433), and no register but `dst`. -/
def State.accessFrame (s t : State) (es : List Elem) (wrote retagged : Nat → Prop) (dst : Option RegRef) : Prop :=
  (∀ x, ¬wrote x → (∀ e ∈ es, x ≠ e.leaf.at_ + 1) → t.byte x = s.byte x)
  ∧ (∀ x, ¬retagged x → (∀ e ∈ es, x / 64 ≠ (e.leaf.at_ + 1) / 64) → t.tagAt x = s.tagAt x)
  ∧ (∀ r, some r ≠ dst → t.me.commitAll.value r = s.me.commitAll.value r)
  ∧ t.me.fflags = s.me.fflags ∧ t.me.frames = s.me.frames ∧ ∀ k, k ≠ s.cur → t.strand k = s.strand k

/-- The vector accesses (Table 6.7): whether they store, the index register, and the index of element `i`. -/
def vectorAccess (i : Instr) : Option (VfArgs × Bool × List RegRef × (Strand → Nat → Int)) :=
  match i with
  | .vle a => some (a, false, [rx a.vs2], fun t i => (t.readX a.vs2).toInt + i)
  | .vse a => some (a, true, [rx a.vs2], fun t i => (t.readX a.vs2).toInt + i)
  | .vlse a => some (a, false, [rx a.vs2, rx (a.vs2 + 1)], fun t i => (t.readX a.vs2).toInt + i * (t.readX (a.vs2 + 1)).toInt)
  | .vlxe a => some (a, false, [rv a.vs2], fun t i => signedOf 32 (elemOf (t.readV a.vs2) 4 i))
  | .vsxe a => some (a, true, [rv a.vs2], fun t i => signedOf 32 (elemOf (t.readV a.vs2) 4 i))
  | _ => none

/-- The active lanes of a vector access of elements of `w` bytes, in ascending order (R143, R191). -/
def accessLanes (s : State) (pg : Fin 8) (w : Nat) (indexed : Bool) : List Nat :=
  (List.range (if indexed then Min.min (128 / w) 32 else 128 / w)).filter fun i => (s.me.readP pg).getLsbD (w * i)

/-- The trap of the first of checks 1 to 5 that fails (Table 1.7). -/
def firstFault (s : State) (c : Cap) (reg : Nat) (want : BitVec 14) (shape : Bool) : Option TrapInfo :=
  let trap (k : Cause) (v : Word) : Option TrapInfo := some { cause := k, tval := v, tcap := BitVec.ofNat 64 reg }
  if c.tag = false then trap .capTag 0
  else if c.otype ≠ 0 then trap .capSeal (BitVec.ofNat 64 c.otype)
  else match staleRecord s s.myPart c with
    | some r => trap .capStale r
    | none =>
      if want &&& ~~~c.perms ≠ 0 then trap .capPerm ((want &&& ~~~c.perms).setWidth 64)
      else if c.codesOk = false ∨ shape = false then trap .capFormat (BitVec.ofNat 64 (c.bits.toNat / 2 ^ 64 % 2 ^ 64))
      else none

/-- The trap of a byte-mode access of `n` bytes at offset `imm × n`: the first check of Table 1.7 that fails, none when checks 1 to 10 pass. -/
def byteFault (s : State) (reg : Nat) (imm : BitVec 10) (n : Nat) (use : Use) : Option TrapInfo :=
  let c := s.me.readC reg
  let o := imm.toInt * n
  let trap (k : Cause) (v : Word) : Option TrapInfo := some { cause := k, tval := v, tcap := BitVec.ofNat 64 reg }
  match firstFault s c reg (if use.write then 0x0002 else 0x0001) (runShape c) with
  | some t => some t
  | none =>
    if o < 0 ∨ (c.extent 0 * esize c.fmt : Nat) < o + n then
      trap .capBound (BitVec.ofNat 64 (15 * 2 ^ 60 + (o % 2 ^ 32).toNat))
    else if (c.base + o) % n ≠ 0 then trap .align (BitVec.ofInt 64 (c.base + o))
    else match translate s (s.pidOf s.cur) (c.base + o).toNat use with
      | .error e => some (e.trap (s.pidOf s.cur) (c.base + o).toNat reg)
      | .ok _ => none

/-- The register instructions of chapters 3, 5 and 6. -/
def plainOf (i : Instr) : Option Plain :=
  (integerTwo i).orElse fun _ => (integerCount i).orElse fun _ => (integerImm i).orElse fun _ => (floatScalar i).orElse fun _ =>
    (vectorArith i).orElse fun _ => (vectorMove i).orElse fun _ => (predicate i).orElse fun _ => capabilityQuery i

/-- The 32-bit instruction that a 16-bit operation equals (Table 2.5). -/
def laneOf (i : Instr) : Option Instr :=
  let pg (a : C16Args) : Fin 8 := if a.p1 then 1 else 0
  let two (f2 : Fin 4) (a : C16Args) : VArgs := { vd := a.vd, vs1 := a.vd, vs2 := a.vs2, pg := pg a, f2 := f2, h := 0, sc := 0 }
  let one (a : C16Args) : VuArgs := { vd := a.vd, vs1 := a.vs2, pg := pg a, f2 := 0, h := 0, sc := 0 }
  let bits (vs1 : Reg) (a : C16Args) : VfArgs := { vd := a.vd, vs1 := vs1, vs2 := a.vs2, pg := pg a, h := 0, sc := 0 }
  match i with
  | .vaddF32C16 a => some (.vadd (two 0 a))
  | .vsubF32C16 a => some (.vsub (two 0 a))
  | .vmulF32C16 a => some (.vmul (two 0 a))
  | .vminF32C16 a => some (.vmin (two 0 a))
  | .vmaxF32C16 a => some (.vmax (two 0 a))
  | .vaddS32C16 a => some (.vadd (two 3 a))
  | .vsubS32C16 a => some (.vsub (two 3 a))
  | .vandC16 a => some (.vand (bits a.vd a))
  | .vorC16 a => some (.vor (bits a.vd a))
  | .vxorC16 a => some (.vxor (bits a.vd a))
  | .vmovC16 a => some (.vor (bits a.vs2 a))
  | .vnegF32C16 a => some (.vneg (one a))
  | .vabsF32C16 a => some (.vabs (one a))
  | .vmacF32C16 a => some (.vfma { vd := a.vd, vs1 := a.vs2, vs2 := 0, pg := pg a, f2 := 0, h := 0, sc := 0 })
  | .vsllS32C16 a => some (.vsll (bits a.vd a))
  | .vcvtBf16F32C16 a => some (.vcvt { vd := a.vd, vs1 := a.vs2, vs2 := 5, pg := pg a, f2 := 0, h := 0, sc := 0 })
  | _ => none

/-! Control (R100 to R112, R220 to R222). -/

/-- The branches: what each reads and when it is taken (R100, R167). -/
def branchOf (i : Instr) : Option (SArgs × List RegRef × (Strand → Bool)) :=
  let x (test : Word → Word → Bool) (a : SArgs) : Option (SArgs × List RegRef × (Strand → Bool)) :=
    some (a, [rx a.rs1, rx a.rs2], fun t => test (t.readX a.rs1) (t.readX a.rs2))
  match i with
  | .beq a => x (fun u v => decide (u = v)) a
  | .bne a => x (fun u v => decide (u ≠ v)) a
  | .blt a => x (fun u v => decide (u.toInt < v.toInt)) a
  | .bge a => x (fun u v => decide (v.toInt ≤ u.toInt)) a
  | .bltn a => x (fun u v => decide (u.toNat < v.toNat)) a
  | .bgen a => x (fun u v => decide (v.toNat ≤ u.toNat)) a
  | .bpany a => some (a, [rp a.rs1], fun t => decide (t.readP a.rs1 ≠ 0))
  | .bpnone a => some (a, [rp a.rs1], fun t => decide (t.readP a.rs1 = 0))
  | _ => none

/-- A target lies in the code of a PCC (R101). -/
abbrev InCode (pcc : Cap) (t : Int) : Prop := 0 ≤ t ∧ t + 2 ≤ pcc.extent 0

/-- The trap of a target outside the current PCC (R101): the target is recorded as the nearest signed 32-bit number (R43). -/
def targetTrap (t : Int) : TrapInfo :=
  { cause := .capBound, tval := BitVec.ofNat 64 (15 * 2 ^ 60 + (Max.max (-2 ^ 31) (Min.min (2 ^ 31 - 1) t) % 2 ^ 32).toNat), tcap := 0 }

/-- The address after the current instruction, which a jump links to. -/
def State.nextPc (s : State) : Word := BitVec.ofInt 64 (s.me.pc + 4)

/-- The instructions whose effect is a trap (R55, R110). -/
def trapOf (i : Instr) : Option TrapInfo :=
  match i with
  | .endOfKernel => some { cause := .illegal, tval := 0, tcap := 0 }
  | .ecall a => some { cause := .ecall, tval := BitVec.ofNat 64 a.imm.toNat, tcap := 0 }
  | .ebreak a => some { cause := .ebreak, tval := BitVec.ofNat 64 a.imm.toNat, tcap := 0 }
  | _ => none

/-- The instructions that need SYS in PCC (R46, R112, R179, chapter 13). -/
def needsSys (i : Instr) : Bool :=
  match i with
  | .tret _ => true
  | .ckey _ => true
  | .oalloc _ => true
  | .ofree _ => true
  | .verstep _ => true
  | .sweepgo _ => true
  | _ => false

/-- The instructions of a core's head strand (R236). -/
def needsHead (i : Instr) : Bool :=
  match i with
  | .spawn _ => true
  | .reap _ => true
  | .park _ => true
  | _ => false

/-! Control registers (Table 1.8). -/

/-- A CSR instruction may act on its register (R46, R114): `write` for the instructions that write. -/
abbrev CsrAllowed (s : State) (n : Nat) (write : Bool) : Prop :=
  csrKnown n = true ∧ (csrPriv n = true → s.me.sys = true) ∧ (n = 0x021 → write = true → s.cur % 16 = 0)

/-- A write of control register `n` left every other one, memory, the general registers and the other strands as they were. -/
def State.csrKept (s t : State) (n : Nat) : Prop :=
  (∀ k, k ≠ n → csrNow t k = csrNow (s.setMe (s.me.issued none [])) k)
  ∧ (n ≠ 0x004 → t.myPart.tvecCode = s.myPart.tvecCode ∧ t.myPart.tvecData = s.myPart.tvecData)
  ∧ (n ≠ 0x050 → t.myPart.convpool = s.myPart.convpool)
  ∧ (∀ r, t.me.commitAll.value r = s.me.commitAll.value r) ∧ t.mem = s.mem ∧ t.tags = s.tags
  ∧ (s.lockFree → ∀ k, k ≠ s.cur → t.strand k = s.strand k)

/-- A CSR instruction that writes, and the value it offers, given the old one. -/
def csrWriter (i : Instr) : Option (IArgs × (Word → Word → Word)) :=
  match i with
  | .csrw a => some (a, fun _ x => x)
  | .csrs a => some (a, fun old x => old ||| x)
  | .csrc a => some (a, fun old x => old &&& ~~~x)
  | _ => none

/-- The writable fields of the registers that a plain CSR write changes (Table 1.8). -/
def rwFields (n : Nat) : Option Word :=
  match n with
  | 0x000 => some 0x80000000000000FF
  | 0x001 => some 0xFFFFFFFFFFFFFFFF
  | 0x002 => some 0xFFFFFFFFFFFFFFFF
  | 0x003 => some 0xFFFFFFFFFFFFFFFF
  | 0x005 => some 0x00000001FFFFFFFF
  | 0x006 => some 0x00000000FFFFFFFF
  | 0x018 => some 0xFF
  | 0x019 => some 0x3
  | 0x01A => some 0x1
  | 0x01B => some 0xFF
  | 0x020 => some 0x1
  | 0x021 => some 0xFFFF
  | 0x051 => some 0xF800FFFFFFFFFF80
  | 0x052 => some 0xF800FFFFFFFFFFE0
  | 0x054 => some 0x3FFF
  | 0x058 => some 0xFFFF
  | 0x078 => some 0x007FFFFFFFFFFFFF
  | 0x079 => some 0x007FFFFFFFFFFFFF
  | 0x07A => some 0x007FFFFFFFFFFFFF
  | 0x07B => some 0x007FFFFFFFFFFFFF
  | _ => none

/-! Capabilities (R170 to R183). -/

/-- A field of an operand word. -/
def operand (x : Word) (lo n : Nat) : Nat := x.toNat / 2 ^ lo % 2 ^ n

/-- The derivations of Table 6.2: what each makes of a view and an operand word, none where it raises CAP_DERIVE. -/
def derivation (i : Instr) : Option (RArgs × (View → Word → Option View)) :=
  let inDim (v : View) (x : Word) (f : Nat → Int × Int → Int → Option View) : Option View :=
    if operand x 0 3 < v.dims.length then f (operand x 0 3) (v.dim (operand x 0 3)) (operand x 8 20 : Nat) else none
  match i with
  | .cslice a => some (a, fun v x => inDim v x fun k d start =>
      if start + (operand x 28 20 : Nat) ≤ d.1 then (v.moved (start * d.2)).map fun u => u.setDim k ((operand x 28 20 : Nat), d.2) else none)
  | .cstep a => some (a, fun v x => inDim v x fun k d n =>
      if n = 0 then none else some (v.setDim k (-(-d.1 / n), d.2 * n)))
  | .cflip a => some (a, fun v x => inDim v x fun k d _ =>
      if d.1 = 0 then some (v.setDim k (0, -d.2)) else (v.moved ((d.1 - 1) * d.2)).map fun u => u.setDim k (d.1, -d.2))
  | .cperm a => some (a, fun v x => inDim v x fun k d _ =>
      if operand x 3 3 < v.dims.length then some ((v.setDim k (v.dim (operand x 3 3))).setDim (operand x 3 3) d) else none)
  | .csplit a => some (a, fun v x => inDim v x fun k d n =>
      if v.dims.length ≠ 8 ∧ n ≠ 0 ∧ n ∣ d.1 then some { v with dims := (v.dims.set k (d.1 / n, n * d.2)).insertIdx k (n, d.2) } else none)
  | .cmerge a => some (a, fun v x => inDim v x fun k d _ =>
      if k + 1 < v.dims.length ∧ (v.dim (k + 1)).2 = d.1 * d.2 then
        some { v with dims := (v.dims.set k (d.1 * (v.dim (k + 1)).1, d.2)).eraseIdx (k + 1) } else none)
  | .cfix a => some (a, fun v x => inDim v x fun k d n =>
      if v.dims.length ≠ 1 ∧ n < d.1 then (v.moved (n * d.2)).map fun u => { u with dims := v.dims.eraseIdx k } else none)
  | .cbcast a => some (a, fun v x =>
      if operand x 0 3 ≤ v.dims.length ∧ v.dims.length ≠ 8 then
        some { v with dims := v.dims.insertIdx (operand x 0 3) ((operand x 8 20 : Nat), 0), perms := v.perms &&& 0x3FBD } else none)
  | .candp a => some (a, fun v x => some { v with perms := v.perms &&& x.setWidth 14 })
  | .creach a => some (a, fun v x => if operand x 0 2 ≤ v.reach then some { v with reach := operand x 0 2 } else none)
  | .cretag a => some (a, fun v x =>
      if fmtBits (operand x 6 6) = fmtBits v.fmt ∧ operand x 3 3 = v.sparse then
        some { v with fmt := operand x 6 6, layout := operand x 0 3 } else none)
  | _ => none

/-- The checks of R170, and R174 for CRETAG, pass on a source and an operand word. -/
def derivable (i : Instr) (c : Cap) (x : Word) : Bool :=
  let key (i : Instr) : Bool := match i with
    | .candp _ => true
    | .creach _ => true
    | _ => false
  let kind (i : Instr) : Bool := match i with
    | .cretag _ => c.perms.getLsbD 12 && (fmtBits (operand x 6 6)).isSome && decide (operand x 3 3 < 5) && decide (operand x 0 3 < 5)
    | _ => true
  c.tag && (decide (c.otype = 0) || (key i && c.isTypeKey)) && c.codesOk && kind i

/-- Sealing: what CBIND and CUNBIND make of a value and a key, none where they fault (R178). -/
def sealing (i : Instr) : Option (RArgs × (Cap → Cap → Option Cap)) :=
  let both (v k : Cap) (right : Nat) : Bool := v.tag && k.isTypeKey && k.perms.getLsbD right && !v.isTypeKey
  match i with
  | .cbind a => some (a, fun v k => if both v k 10 ∧ v.otype = 0 then some (v.withOtype k.otype) else none)
  | .cunbind a => some (a, fun v k => if both v k 11 ∧ v.otype = k.otype then some (v.withOtype 0) else none)
  | _ => none

/-- The registers after a compartment switch (R182, R183): the argument window is kept, c30 and c31 are as given, all others are cleared. -/
def Switched (old new : Strand) (c30 c31 : Cap) : Prop :=
  (∀ r, new.readX r = if 10 ≤ r ∧ r ≤ 17 then old.readX r else 0)
  ∧ (∀ r, new.readC r = if r = 31 then c31 else if r = 30 then c30 else if r ≤ 8 then old.readC r else Cap.null)
  ∧ (∀ r < 32, new.readV r = 0) ∧ (∀ r, r ≠ 0 → new.readP r = 0)
  ∧ (∀ r < 32, new.isFull (rx r) = if 10 ≤ r ∧ r ≤ 17 then old.isFull (rx r) else true)
  ∧ (∀ r < 32, new.isFull (rc r) = if 1 ≤ r ∧ r ≤ 8 then old.isFull (rc r) else true)
  ∧ new.recipes = [] ∧ new.ties = [] ∧ new.fflags = old.fflags ∧ new.frm = old.frm ∧ new.schk = old.schk

/-! Atomics, ordering and full/empty words (R196 to R204). -/

/-- A number of `w` bytes as a signed one. -/
def asSigned (w v : Nat) : Int := if 2 ^ (8 * w - 1) ≤ v then (v : Int) - 2 ^ (8 * w) else v

/-- The integer atomics that always write: their number in Table 7.2, and the new value from the width in bytes, the old value and the operand. -/
def atomicOf (i : Instr) : Option (AArgs × Nat × (Nat → Nat → Nat → Nat)) :=
  match i with
  | .amoadd a => some (a, 0, fun w x y => (x + y) % 2 ^ (8 * w))
  | .amoand a => some (a, 1, fun _ x y => x &&& y)
  | .amoor a => some (a, 2, fun _ x y => x ||| y)
  | .amoxor a => some (a, 3, fun _ x y => x ^^^ y)
  | .amomin a => some (a, 4, fun w x y => if asSigned w y < asSigned w x then y else x)
  | .amomax a => some (a, 5, fun w x y => if asSigned w x < asSigned w y then y else x)
  | .amominn a => some (a, 6, fun _ x y => if y < x then y else x)
  | .amomaxn a => some (a, 7, fun _ x y => if x < y then y else x)
  | .amoswap a => some (a, 8, fun _ _ y => y)
  | _ => none

/-- What an atomic with its number in Table 7.2 writes at its home: the new value, none where it writes nothing. To the peer card it is a
request, which that card performs (R198, R461); a write of an SO page that the peer card is told of holds the next issue (R414, R434). -/
def State.atomicWrite (s : State) (code : Nat) (e : Elem) (w : Nat) (operand expected : Word) (new : Option Nat) : State :=
  if s.isPeer e.pa then { s with outbox := s.outbox ++ [.peerAtomic e.pa (decide (w = 8)) code operand expected] }
  else match new with
    | some v => (s.store e.pa w v).holdSo s.cur (soPage e.leaf.entry && s.tells e.pa)
    | none => s

/-- A release at a scope may be performed: at FABRIC every posted packet of the partition is acknowledged (R411, R461, log 18). -/
abbrev CanRelease (s : State) (ord : Fin 4) (scope : Nat) : Prop := 2 ≤ ord.val → scope = 5 → s.posted (s.pidOf s.cur) = false

/-- The L1 after the release of an access with an ordering modifier: its dirty bytes go home above CORE scope (R255). -/
def State.releasing (s : State) (ord : Fin 4) (scope : Nat) : State :=
  if 2 ≤ ord.val ∧ 2 ≤ scope then s.l1Release (coreOf s.cur) ((s.pidOf s.cur).getD 0) else s

/-- The L1 after its acquire. -/
def State.acquiring (s : State) (ord : Fin 4) (scope : Nat) : State :=
  if ord.val % 2 = 1 ∧ 2 ≤ scope then s.l1Acquire (coreOf s.cur) else s

/-- An atomic passes its checks and reaches `e` (R197, R198). -/
abbrev AtomicReach (s : State) (cs : Reg) (shape : Bool) (e : Elem) : Prop :=
  let c := s.me.readC cs
  Allowed s c 0x0043 shape ∧ InBounds c [] ∧ Reached s useAtomic (esize c.fmt) (some c.fmt) c.objid (elementAddr c []) e

/-- A full/empty access by `c[rs1]` with index x[rs2] passes its checks and reaches the word `e` of a scratchpad bank (R201). -/
abbrev WordReach (s : State) (a : RArgs) (want : BitVec 14) (use : Use) (e : Elem) : Prop :=
  let c := s.me.readC a.rs1
  let idx := [(s.me.readX a.rs2).toInt]
  Allowed s c want (decide (c.sparse = 0) && (decide (c.fmt = 0x07) || decide (c.fmt = 0x08))) ∧ InBounds c idx
    ∧ Reached s use 8 (some c.fmt) c.objid (elementAddr c idx) e ∧ (s.bankOf e.pa).isSome = true

/-- A wait at a barrier object. -/
def Wait.atBarrier (w : Wait) : Bool :=
  match w with
  | .bar _ _ => true
  | _ => false

/-- No request, arrival or lock request of the strand itself waits at a bank, and it waits at no barrier, as is the case while it runs; no
strand has a dropped register, which a completion at a bank would first rebuild (R213); the table of strands is in canonical form. -/
abbrev Settled (s : State) : Prop :=
  swf Strand.reset s.strands = true
  ∧ (∀ e ∈ s.strands, e.2.dropX = 0 ∧ e.2.dropV = 0)
  ∧ (∀ e ∈ s.cores, (∀ r ∈ e.2.reqs, r.strand ≠ s.cur) ∧ (∀ r ∈ e.2.arrivals, r.strand ≠ s.cur) ∧ ∀ q ∈ e.2.lockQ, q.2.1 ≠ s.cur)
  ∧ s.me.wait.atBarrier = false

/-- The scope at which a full/empty access orders others (R201): CORE for a bank of the own core, else wider. -/
def wordScope (s : State) (pa : Nat) : Nat :=
  match s.bankOf pa with
  | some (core, _) => if core = coreOf s.cur then 1 else 2
  | none => 2

/-- F and W of a word as LDF reports them: F in bit 0, W in bit 1 (R201). -/
def State.wordBits (s : State) (pa : Nat) : Word := BitVec.ofNat 64 ((s.fullBit pa).toNat + 2 * (s.waiterBit pa).toNat)

/-- A strand on whose word the change of F finds W set takes WAITER_WAKE (R204). -/
def Strand.woken (t : Strand) (wake : Bool) (va reg : Nat) : Strand :=
  if wake then { t with events := insertEvent (mkEvent 5 0 .waiterWake (BitVec.ofNat 64 va) (BitVec.ofNat 64 reg)) t.events } else t

/-! Banks and barrier objects (R253, R260 to R272). -/

/-- A barrier instruction passes its checks and reaches the object `e` in a bank of the issuing core (R269). -/
abbrev BarrierReach (s : State) (a : EqArgs) (want : BitVec 14) (use : Use) (e : Elem) : Prop :=
  let c := s.me.readC a.ca
  Allowed s c want (decide (c.sparse = 0) && (decide (c.fmt = 0x07) || decide (c.fmt = 0x08)) && decide (2 ≤ c.extent 0))
    ∧ InBounds c [0] ∧ InBounds c [1] ∧ Reached s use 16 (some c.fmt) c.objid (elementAddr c [0]) e
    ∧ (s.bankOf e.pa).map (·.1) = some (coreOf s.cur)

/-- The register that a SR bit empties. -/
def syncOf (sr : Bool) (r : RegRef) : Option RegRef := if sr then some r else none

/-- A BANKFMT that issues at once passes its checks and names bank `b` of the issuing core, which no other strand has locked (R260). -/
abbrev FormatReach (s : State) (a : EqArgs) (b : Nat) : Prop :=
  let c := s.me.readC a.ca
  let x := (s.me.readX a.xc).toNat
  Settled s ∧ Ready [rc a.ca, rx a.xc] [] 0 s ∧ Allowed s c 0x0083 (anyShape c) ∧ InBounds c [] ∧ exactBank s (coreOf s.cur) c = some b
    ∧ x < 256 ∧ (fmtBits (x % 64)).isSome = true ∧ ∀ l, s.myCore.lockOf b = some l → l.holder = s.cur

/-- The state after BANKFMT on bank `b`: a bank that leaves a sealed format is zeroed, and requests that waited at it are looked at again. -/
def State.formatted (s : State) (a : EqArgs) (b : Nat) : State :=
  let x := (s.me.readX a.xc).toNat
  let core := coreOf s.cur
  let s0 := s.touchSpan (s.me.readC a.ca)
  let s1 := if (s.myCore.bfmtOf b).getLsbD 6 = true ∧ x / 64 % 2 = 0 then settle core b (s0.myCore.reqs.length + 1) (s0.zeroBank core b) else s0
  s.retireIn (s1.setMyCore { s1.myCore with bfmt := sset 0 s1.myCore.bfmt b (BitVec.ofNat 8 x) }) ((s.me.issued none []).past s.cycle a.sc 4)

/-- An OFREE or VERSTEP that issues at once passes its checks (R438, R450). -/
abbrev LiveReach (s : State) (a : RArgs) : Prop :=
  let c := s.me.readC a.rs1
  s.me.sys = true ∧ Ready [rc a.rs1] [] 0 s ∧ c.tag = true ∧ c.otype = 0 ∧ staleRecord s s.myPart c = none

/-- The state after steps 1 to 3 of R438 on object `i`: GEN is advanced and the entry is FREE, or at GEN 255 it is QUAR and waits for a
sweep; the object caches of this card have dropped it. -/
def State.objectStepped (s : State) (i : Nat) : State :=
  let p := s.myPart
  let s1 := s.l1Release (coreOf s.cur) s.myPid
  let w := objWord s p i 2 / 2 ^ 10 * 2 ^ 10
  let s2 := if objGen s p i < 255 then s1.store (objAt p i + 16) 8 (w + 2 * 2 ^ 8 + (objGen s p i + 1))
    else (s1.store (objAt p i + 16) 8 (w + 2 ^ 8 + 255)).store (objAt p i + 24) 8 (p.sweepNext % 2 ^ 31)
  s2.dropObject s.myPid i

/-- The state after an OFREE of an unpaired partition that waits for nothing. -/
def State.objectFreed (s : State) (a : RArgs) : State :=
  let i := (s.me.readC a.rs1).objid
  s.retireIn ((s.objectStepped i).freeBytes s.myPid i (freeSpan s s.myPart i)) ((s.me.issued (syncOf a.sr (rc a.rs1)) []).past s.cycle a.sc 4)

/-- The state in which a waiting strand tries its instruction again. -/
def State.trying (s : State) (n : Nat) : State := { s.setStrand n { s.strand n with status := .running } with cur := n, stalled := false }

/-- A lock instruction passes its checks and names scratchpad bank `b` of the issuing core (R263). -/
abbrev LockReach (s : State) (a : EqArgs) (b : Nat) : Prop :=
  let c := s.me.readC a.ca
  Allowed s c 0x0082 (anyShape c) ∧ InBounds c []
    ∧ ((translate s (s.pidOf s.cur) c.base useRead).toOption.bind fun r => s.bankOf r.2) = some (coreOf s.cur, b)
    ∧ b < l1First s.myCore.nb

/-! Recipes (R207 to R213). -/

/-- The register that a recipe instruction names. -/
def recipeReg (a : RArgs) : RegRef := if a.rs2 = 0 then rx a.rd else rv a.rd

/-! Engines (R274 to R326). -/

/-- The physical address of element [i, j] of a matrix operand, when it is in bounds, aligned, mapped, and in a scratchpad bank of the
issuing core that holds its format and is sealed as asked (R283). -/
def tileAt (s : State) (c : Cap) (use : Use) (sealed_ : Bool) (i j : Nat) : Option Nat :=
  let idx : List Int := [Int.ofNat i, Int.ofNat j]
  let ad := elemByte c idx
  if (∀ k < c.rank, 0 ≤ idx.getD k 0 ∧ idx.getD k 0 < c.extent k) ∧ 0 ≤ ad ∧ ad % (Max.max 1 (esize c.fmt) : Nat) = 0 then
    match translate s (s.pidOf s.cur) ad.toNat use with
    | .ok (_, pa) =>
      match s.bankOf pa with
      | some (k, b) =>
        let f := s.myCore.bfmtOf b
        if k = coreOf s.cur ∧ b < l1First s.myCore.nb ∧ f.toNat % 64 = c.fmt ∧ f.getLsbD 6 = sealed_ then some pa else none
      | none => none
    | .error _ => none
  else none

/-- Every element of a tile of `e0` by `e1` is reached; their addresses in traversal order (R283). -/
abbrev TileReach (s : State) (c : Cap) (use : Use) (sealed_ : Bool) (e0 e1 : Nat) (pas : List Nat) : Prop :=
  (List.range e1).flatMap (fun j => (List.range e0).map fun i => tileAt s c use sealed_ i j) = pas.map some

/-- An operation of the current strand at the end of MQ (R277). -/
def State.withMat (s : State) (kind : MatKind) (cap : Cap) (reg : Nat) (aux : Option Cap) (pas auxPas : List Nat) : State :=
  let k := s.myCore
  s.setMyCore { k with
    mqIssued := k.mqIssued + 1
    mq := k.mq ++ [{
      seq := k.mqIssued + 1, kind := kind, strand := s.cur, pc := s.me.pc, cap := cap, capReg := reg, aux := aux, pas := pas,
      auxPas := auxPas, snap := [], held := none, start := none, fin := 0, accepted := s.cycle, row := 0, flags := 0, bad := none }] }

/-- The strand as it leaves the rotation until its matrix operation completes (R281). -/
def Strand.inMatrix (t : Strand) : Strand := { t with status := .inMma }

/-- The copy instructions of Table 12.2 that move data: their operation, whether they name c[cb + 1], what that needs and accepts, and
whether the source is scaled (R301, R303). -/
def copyOf (i : Instr) : Option (EfArgs × (Vec → CopyKind) × Bool × Option (BitVec 14 × (Cap → Bool))) :=
  let word (c : Cap) : Bool := decide (c.sparse = 0) && (decide (c.fmt = 0x07) || decide (c.fmt = 0x08))
  match i with
  | .cpy a => some (a, fun _ => .cpy, false, none)
  | .cpyw a => some (a, fun v => .cpyw (BitVec.ofNat 64 (elemOf v 4 8 + elemOf v 4 9 * 2 ^ 32)), false, some (0x0102, word))
  | .cpyb a => some (a, fun _ => .cpyb, false, some (0x0183, fun c => word c && decide (2 ≤ c.extent 0)))
  | .cpys a => some (a, fun _ => .cpys, true, some (0x0101, fun c => decide (c.sparse = 0) && decide (c.fmt = 0x11)))
  | .cpym a => some (a, fun v => .cpym (BitVec.ofNat 8 (elemOf v 4 10)), false, none)
  | _ => none

/-- Element `n` of dimension 0 of an auxiliary operand is in bounds. -/
def auxInside (c : Cap) (n : Nat) : Bool := decide (∀ k < c.rank, (if k = 0 then n else 0) < c.extent k)

/-- The place of a barrier object as an engine checks it: both elements in bounds, aligned, in a scratchpad bank of the issuing core. -/
def barrierAt (s : State) (c : Cap) : Option Nat :=
  let ad := elementAddr c [0]
  if auxInside c 0 ∧ auxInside c 1 ∧ ad % 16 = 0 ∧ 0 ≤ ad then
    match translate s (s.pidOf s.cur) ad.toNat useWrite with
    | .ok (_, pa) =>
      match s.bankOf pa with
      | some (k, b) =>
        let f := s.myCore.bfmtOf b
        if k = coreOf s.cur ∧ b < l1First s.myCore.nb ∧ f.getLsbD 6 = false ∧ (f.toNat % 64 = 0 ∨ f.toNat % 64 = c.fmt) then some pa
        else none
      | none => none
    | .error _ => none
  else none

/-- An address is mapped for writing and aligned to 8 bytes. -/
def wordMapped (s : State) (ad : Int) : Bool :=
  decide (ad % 8 = 0) && decide (0 ≤ ad) && (translate s (s.pidOf s.cur) ad.toNat useWrite).toOption.isSome

/-- The place of the auxiliary operand as R303 checks it at issue: in bounds and aligned; a barrier object also lies in a bank of the
issuing core, and its second element is mapped. -/
def auxAt (s : State) (kind : CopyKind) (c : Cap) : Option Nat :=
  let ad := elementAddr c [0]
  match kind with
  | .cpyw _ => if auxInside c 0 ∧ ad % 8 = 0 then some 0 else none
  | .cpys => if auxInside c 0 ∧ ad % 2 = 0 then some 0 else none
  | .cpyb => if wordMapped s (elementAddr c [1]) then barrierAt s c else none
  | _ => some 0

/-- The state once an engine operation's auxiliary operand has been checked: a barrier object has been translated. -/
def State.auxChecked (s : State) (kind : CopyKind) (c : Cap) : State :=
  match kind with
  | .cpyb => s.translated (elementAddr c [0]) useWrite
  | _ => s

/-- The cores of a copy's multicast, by their numbers. -/
def castTargets (s : State) (kind : CopyKind) : List Nat :=
  match kind with
  | .cpym m => ((List.range 8).filter fun k => m.getLsbD k).map fun k => 8 * clusterOf s.cur + k
  | _ => []

/-- An operation of the current strand at the end of a copy queue (R297). -/
def State.withCopy (s : State) (q : Nat) (op : CopyOp) : State :=
  let c := s.copyQueue (coreOf s.cur) q
  s.setQueue (coreOf s.cur) q { c with ops := c.ops ++ [{ op with seq := c.issued + 1, strand := s.cur }], issued := c.issued + 1 }

/-- A copy operation before any of it has been performed. -/
def copyStub (kind : CopyKind) : CopyOp :=
  { seq := 0, kind := kind, strand := 0, dst := Cap.null, dstReg := 0, src := Cap.null, srcReg := 0, aux := Cap.null, auxReg := 0,
    auxPa := 0, origin := [], scope := 1, blocks := false, started := false, prefixN := 0, sub := 0, flags := 0, old := [] }

/-! Units of a core and a cluster (chapters 14, 15, 17, 21 and 22). -/

/-- The strand after an instruction of latency 0 whose result is a word in x[rd]. -/
def Strand.gives (t : Strand) (cycle : Nat) (rd : Reg) (sc : Fin 4) (v : Word) : Strand := (t.put cycle 0 rd (.x v)).past cycle sc 4

/-- A skein in which every member has arrived: its phase flips (R339). -/
def Skein.tested (k : Skein) : Skein :=
  if k.members ≠ [] ∧ ∀ m ∈ k.members, m.arr = true ∧ m.aph = k.phase then { k with phase := !k.phase, count := k.count + 1 } else k

/-- The launcher's registers after its outputs are stamped (R349). -/
def Strand.stamped (t : Strand) (m : Method) (n : Nat) : Strand :=
  ((List.range 4).filter fun j => decide (j < n) && bitOf m.outm j && (t.readC (j + 1)).tag && decide ((t.readC (j + 1)).otype = 0)).foldl
    (fun u j => (u.noteWrite (rc (j + 1))).setC (j + 1) ((u.readC (j + 1)).withKind (m.outk.getD j 0))) t

/-- The trap of an operand word or form that an instruction does not accept: ILLEGAL with the instruction's own word (R110). -/
def illegalOf (w : Nat) : TrapInfo := { cause := .illegal, tval := BitVec.ofNat 64 w, tcap := 0 }

/-- The first `n` elements of a rank 1 operand are reached. -/
abbrev RunReach (s : State) (c : Cap) (use : Use) (n : Nat) (es : List Elem) : Prop :=
  es.length = n ∧ ∀ j < n, InBounds c [Int.ofNat j] ∧ ∀ e, es[j]? = some e → Reached s use (esize c.fmt) (some c.fmt) c.objid (elementAddr c [Int.ofNat j]) e

/-- The state after every element of `n` bytes of a list has been used. -/
def State.touching (s : State) (es : List Elem) (n : Nat) (write : Bool) : State := es.foldl (fun s e => s.touch e n write) s

end Sys2Proof.Machine
end

