-- ==== Sys2Proof/Certificates/Slice0/Obligations.lean ====
section
/-! DEFINITION. Statements for the provers, from the numbered rules of the spec. Each follows the rules that its docstring names. `Ready` is
what it takes for an instruction to issue at once, `Settled` that the issuing strand itself waits nowhere. -/

open Sys2Proof Sys2Proof.Machine

/-- R88 to R91: every instruction of majors 0x00 to 0x03 that issues at once completes; its result, of the latency of Table 2.2, is the value
that Tables 3.1 to 3.4 and LUI give, and nothing but its strand changes. -/
def Obligations.Integer : Prop :=
  (∀ i p, integerTwo i = some p → Completes i p)
  ∧ (∀ i p, integerCount i = some p → Completes i p)
  ∧ (∀ i p, integerImm i = some p → Completes i p)

/-- R111: NOP completes, and nothing changes but that the pc passes it and its stall count runs. -/
def Obligations.NopCompletes : Prop :=
  ∀ (a : IArgs), Completes (.nop a) { reads := [], writes := [], lat := 0, sc := a.sc, eff := fun _ t => t }

/-- R92 to R99: every instruction of majors 0x04 to 0x07 that issues at once completes; the exact result of decoded operands is rounded
once and zero-extended, FMIN, FMAX and FCMP treat zeros and NaNs as R95 and R96 say, and the flags are merged into FFLAGS, for a result in
x0 too. The model's own reading in it: log 11. -/
def Obligations.FloatScalar : Prop := ∀ i p, floatScalar i = some p → Completes i p

/-- R143 to R153: every form of the instructions of Tables 5.2 and 5.3 that is not ILLEGAL and that issues at once completes; each active
element gets the rounded or wrapped result, inactive elements are kept, and the flags of the active elements are merged into FFLAGS. The
model's own reading in it: log 13. -/
def Obligations.VectorArith : Prop := ∀ i p, vectorArith i = some p → Completes i p

/-- R154 to R166, R175 to R177: VDOT, the shifts and logic, VSEL, the conversions, VCMP, VRED over its fixed tree, VPERM, the lane moves,
the predicate group, and CGETF, CTEST, CSUBSET and CEQ complete when they issue at once, with the results that the tables give. The
model's own readings in it: log 11, log 22. -/
def Obligations.VectorMove : Prop :=
  (∀ i p, vectorMove i = some p → Completes i p)
  ∧ (∀ i p, predicate i = some p → Completes i p)
  ∧ (∀ i p, capabilityQuery i = some p → Completes i p)

/-- R185 to R191: a byte-mode or element-mode access that passes the checks of Table 1.7 completes: a load writes the extended number at the
address, a store puts the low bytes of its source there. A byte-mode access that fails a check takes the trap of the first check it fails.
The model's own readings in it: log 6, log 18. -/
def Obligations.ScalarAccess : Prop :=
  (∀ i a n g (s : State) (e : Elem), byteLoad i = some (a, n, g) → Ready [rc a.rs1] [rx a.rd] 0 s → ByteReach s a.rs1 a.imm n useRead e →
      exec i s = .next (s.retireIn (s.touch e n false)
        (((s.me.issued none [rx a.rd]).put s.cycle 0 a.rd (.x (extended n g (s.load e.pa n)))).past s.cycle a.sc 4)))
  ∧ (∀ i a n (s : State) (e : Elem), byteStore i = some (a, n) → Ready [rc a.rs1, rx a.rs2] [] 0 s → ByteReach s a.rs1 a.imm n useWrite e →
      exec i s = .next (s.storedIn (s.storeElem e n ((s.me.readX a.rs2).toNat % 2 ^ (8 * n)))
        ((s.me.issued none []).past s.cycle a.sc 4)))
  ∧ (∀ (s : State) (t : TrapInfo),
      (∀ i a n g, byteLoad i = some (a, n, g) → Ready [rc a.rs1] [rx a.rd] 0 s → byteFault s a.rs1 a.imm n useRead = some t →
        exec i s = .next (s.trapMe t))
      ∧ ∀ i a n, byteStore i = some (a, n) → Ready [rc a.rs1, rx a.rs2] [] 0 s → byteFault s a.rs1 a.imm n useWrite = some t →
        exec i s = .next (s.trapMe t))
  ∧ (∀ (a : MArgs) (s : State) (e : Elem),
      let c := s.me.readC a.cs
      let idx := [(s.me.readX a.xi).toInt, (s.me.readX a.xj).toInt]
      (Ready [rc a.cs, rx a.xi, rx a.xj] [rx a.rd] 0 s → ElemReach s a.cs idx useRead e →
        exec (.lde a) s = .next (s.retireIn (s.touch e (esize c.fmt) false)
          (((s.me.issued none [rx a.rd]).put s.cycle 0 a.rd (.x (extended (esize c.fmt) (fmtSigned c.fmt) (s.load e.pa (esize c.fmt))))).past
            s.cycle a.sc 4)))
      ∧ (Ready [rc a.cs, rx a.xi, rx a.xj, rx a.rd] [] 0 s → ElemReach s a.cs idx useWrite e →
        exec (.ste a) s = .next (s.storedIn (s.storeElem e (esize c.fmt) ((s.me.readX a.rd).toNat % 2 ^ (8 * esize c.fmt)))
          ((s.me.issued none []).past s.cycle a.sc 4))))

/-- R29, R34, R35, R187, R442: LC and SC complete when the access passes its checks; LC clears the tag of what it loads through a
capability without LDC, and while a sweep of the partition is active it first clears the tag of a stale capability where it lies; SC
writes all 512 bits and the tag. The model's own readings in it: log 6, log 18. -/
def Obligations.CapabilityAccess : Prop :=
  ∀ (a : VfArgs) (s : State) (e : Elem),
    let c := s.me.readC a.vs1
    let v := s.me.readC a.vd
    let idx := [(s.me.readX a.vs2).toInt]
    let shape := decide (c.sparse = 0) && decide (c.fmt = 0x20)
    (Ready [rc a.vs1, rx a.vs2] [rc a.vd] 0 s → Allowed s c 0x0001 shape → InBounds c idx →
      Reached s useRead 64 (some c.fmt) c.objid (elementAddr c idx) e →
      let stale := s.myPart.sweepActive && s.tagAt e.pa && (staleRecord s s.myPart (s.loadCap (e.pa / 64 * 64))).isSome
      let s1 := if stale then { s with tags := sset false s.tags (e.pa / 64) false } else s
      exec (.lc a) s = .next (s.retireIn (s1.touch e 64 false) (((s.me.issued none [rc a.vd]).put s.cycle 0 a.vd
        (.c { tag := s1.tagAt e.pa && c.perms.getLsbD 2, bits := BitVec.ofNat 512 (s.load e.pa 64) })).past s.cycle a.sc 4)))
    ∧ (Ready [rc a.vs1, rx a.vs2, rc a.vd] [] 0 s → Allowed s c (if v.tag then 0x000A else 0x0002) shape → InBounds c idx →
      (v.tag = true → staleRecord s s.myPart v = none ∧ (v.reach ≠ 0 ∨ c.perms.getLsbD 4 = true)) →
      Reached s { write := true, tagged := v.tag, raw := false } 64 (some c.fmt) c.objid (elementAddr c idx) e →
      exec (.sc a) s = .next (s.storedIn (s.storeCapElem e v) ((s.me.issued none []).past s.cycle a.sc 4)))


/-- R189 to R195: a vector load whose active elements all pass their checks merges what it read into its destination; a vector store whose
active elements all pass writes each of them. The model's own readings in it: log 6, log 18. -/
def Obligations.VectorAccess : Prop :=
  (∀ i a rs idx (s : State) (es : Nat → Elem), vectorAccess i = some (a, false, rs, idx) →
      let c := s.me.readC a.vs1
      let w := esize c.fmt
      let ls := accessLanes s a.pg w (rs.any fun r => r.cls == .v)
      Ready (rc a.vs1 :: rs ++ [rp a.pg]) [rv a.vd] 0 s → Allowed s c 0x0001 (elementShape c) →
      (∀ l ∈ ls, InBounds c [idx s.me l] ∧ Reached s useRead w (some c.fmt) c.objid (elementAddr c [idx s.me l]) (es l)) →
      exec i s = .next (s.retireIn (s.touchAll ((inParts (ls.map fun l => (l, es l))).map (·.2)) w false)
        (((s.me.issued none [rv a.vd]).put s.cycle 0 a.vd (.v (BitVec.ofNat 1024 (packLanes w (128 / w) fun l =>
          if l ∈ ls then s.load (es l).pa w else elemOf (s.me.readV a.vd) w l)))).past s.cycle a.sc 4)))
  ∧ (∀ i a rs idx (s : State) (es : Nat → Elem), vectorAccess i = some (a, true, rs, idx) →
      let c := s.me.readC a.vs1
      let w := esize c.fmt
      let ls := accessLanes s a.pg w (rs.any fun r => r.cls == .v)
      Ready (rc a.vs1 :: rs ++ [rv a.vd, rp a.pg]) [] 0 s → Allowed s c 0x0002 (elementShape c) →
      (∀ l ∈ ls, InBounds c [idx s.me l] ∧ Reached s useWrite w (some c.fmt) c.objid (elementAddr c [idx s.me l]) (es l)) →
      let stores := (inParts (ls.map fun l => (l, es l))).map fun e =>
        { at_ := e.2.at_, size := w, value := elemOf (s.me.readV a.vd) w e.1, objid := c.objid }
      exec i s = .next (s.storedIn (s.writeParts s.cur (partsOf stores)) ((s.me.issued none []).past s.cycle a.sc 4)))

/-- R74: each 16-bit operation completes with the effect, flags and latency of its equivalent in Table 2.5, is two bytes long and has stall
count 0. -/
def Obligations.LaneOperations : Prop :=
  ∀ i j p, laneOf i = some j → (vectorArith j).orElse (fun _ => vectorMove j) = some p → Completes i { p with sc := 0, len := 2 }

/-- R70 to R73: a REP with no repetition left continues after the instruction it repeats; else it keeps the count, and each repetition
performs the instruction with its register fields advanced and records the progress. With stall count 0 the first repetition is in the
step of the REP (log 3), and a first repetition that waits parks the REP. The model's own reading in it: log 17. -/
def Obligations.RepRepetitions : Prop :=
  (∀ (a : RepArgs) (s : State) (h : List Byte × List Elem) (word len : Nat),
      let n := if a.xc then (s.me.readX (a.count.val % 32)).toNat % 2 ^ 32 else a.count.val
      s.me.rep = none → Ready (if a.xc then [rx (a.count.val % 32)] else []) [] 0 s →
      fetchAt s (s.me.pc + 4) = .ok h → repCheck a h.1 n = .ok (word, len) →
      let t := s.me.issued none []
      let u := s.touchFetch h.2
      let first := repetition { args := a, n := n, word := word, len := len } (u.setMe t)
      (n ≤ s.me.repdone.toNat → exec (.rep a) s = .next (s.retireIn u
          { t with repdone := 0, rep := none, pc := t.pc + 4 + len, nextIssue := s.cycle + gapOf a.sc }))
      ∧ (s.me.repdone.toNat < n → a.sc ≠ 0 → (∀ v, first = .ok v → v.me.waiting = false) → exec (.rep a) s = .next (s.retireIn u
          { t with rep := some { args := a, n := n, word := word, len := len }, nextIssue := s.cycle + gapOf a.sc }))
      ∧ ∀ v, s.me.repdone.toNat < n → first = .ok v →
        (v.me.waiting = true → exec (.rep a) s = .next (v.setMe (s.me.parked v.me.wait)))
        ∧ (v.me.waiting = false → a.sc = 0 → exec (.rep a) s = .next (s.countIssue (v.countFor s.cur))))
  ∧ (∀ (a : RepArgs) (s : State) (r : RepRun) (i : Instr) (p : Plain) (len : Nat),
      let k := s.me.repdone.toNat
      s.me.rep = some r → k < r.n →
      decodeWord (r.word + k * (r.args.sd.toNat * 2 ^ 9 + r.args.s1.toNat * 2 ^ 14 + r.args.s2.toNat * 2 ^ 19)) = .ok (.whole i) len →
      r.word % 2 = 1 → plainOf i = some p → Ready p.reads p.writes p.lat s →
      let t := p.eff s.cycle (s.me.issued p.sync p.writes)
      exec (.rep a) s = .next (s.retire (if k + 1 = r.n
        then { t with repdone := 0, rep := none, pc := t.pc + 4 + r.len, nextIssue := s.cycle + gapOf p.sc }
        else { t with repdone := BitVec.ofNat 32 (k + 1), rep := some r, nextIssue := s.cycle + gapOf p.sc })))

/-- R100 to R103, R167: BEQ, BNE, BLT, BGE, BLTN, BGEN, BPANY and BPNONE that issue at once with a target in PCC complete, at the target when
taken and past themselves when not; JAL and JALC complete with their link, JALC at the PC that its register and displacement give, in the
code capability it names. A branch that is not taken needs no target; a taken one, JAL and JALC by PCC raise CAP_BOUND for a target
outside, and JALC raises ALIGN for an odd one. The model's own reading in it: log 10. -/
def Obligations.ControlTransfer : Prop :=
  ((∀ (a : SArgs) (s : State),
      let t := s.me.pc + 2 * a.imm.toInt
      let x := s.me.readX a.rs1
      let y := s.me.readX a.rs2
      let p := s.me.readP a.rs1
      let u := s.me.issued none []
      let after (taken : Bool) : State := s.retire (if taken then u.jumped s.cycle a.sc t else u.past s.cycle a.sc 4)
      InCode s.me.pcc t →
      (Ready [rx a.rs1, rx a.rs2] [] 0 s →
        exec (.beq a) s = .next (after (decide (x = y)))
        ∧ exec (.bne a) s = .next (after (decide (x ≠ y)))
        ∧ exec (.blt a) s = .next (after (decide (x.toInt < y.toInt)))
        ∧ exec (.bge a) s = .next (after (decide (y.toInt ≤ x.toInt)))
        ∧ exec (.bltn a) s = .next (after (decide (x.toNat < y.toNat)))
        ∧ exec (.bgen a) s = .next (after (decide (y.toNat ≤ x.toNat))))
      ∧ (Ready [rp a.rs1] [] 0 s →
        exec (.bpany a) s = .next (after (decide (p ≠ 0)))
        ∧ exec (.bpnone a) s = .next (after (decide (p = 0)))))
    ∧ (∀ (a : JArgs) (s : State),
      let t := s.me.pc + 2 * a.off.toInt
      Ready [] [rx 1] 0 s → InCode s.me.pcc t →
      exec (.jal a) s = .next (s.retire (((s.me.issued none [rx 1]).put s.cycle 0 1 (.x s.nextPc)).jumped s.cycle a.sc t)))
    ∧ ∀ (a : IArgs) (s : State),
      let t := (s.me.readX a.rd).toInt + 2 * a.imm.toInt
      let c := if a.rs1 = 0 then s.me.pcc else s.me.readC a.rs1
      Ready (rx a.rd :: if a.rs1 = 0 then [] else [rc a.rs1]) [rx a.rd] 0 s → (a.rs1 ≠ 0 → Allowed s c 0x0020 (codeShape c)) →
      InCode c t → t % 2 = 0 →
      exec (.jalc a) s = .next (s.retire
        { ((s.me.issued none [rx a.rd]).put s.cycle 0 a.rd (.x s.nextPc)).jumped s.cycle a.sc t with pcc := c }))
  ∧ ((∀ i a rs taken (s : State), branchOf i = some (a, rs, taken) → Ready rs [] 0 s →
      let t := s.me.pc + 2 * a.imm.toInt
      (taken s.me = false → exec i s = .next (s.retire ((s.me.issued none []).past s.cycle a.sc 4)))
      ∧ (taken s.me = true → ¬InCode s.me.pcc t → exec i s = .next (s.trapMe (targetTrap t))))
    ∧ (∀ (a : JArgs) (s : State), Ready [] [rx 1] 0 s →
      let t := s.me.pc + 2 * a.off.toInt
      ¬InCode s.me.pcc t → exec (.jal a) s = .next (s.trapMe (targetTrap t)))
    ∧ ∀ (a : IArgs) (s : State), a.rs1 = 0 → Ready [rx a.rd] [rx a.rd] 0 s →
      let t := (s.me.readX a.rd).toInt + 2 * a.imm.toInt
      (¬InCode s.me.pcc t → exec (.jalc a) s = .next (s.trapMe (targetTrap t)))
      ∧ (InCode s.me.pcc t → t % 2 ≠ 0 →
        exec (.jalc a) s = .next (s.trapMe { cause := .align, tval := BitVec.ofInt 64 (s.me.pcc.base + t), tcap := 0 })))

/-- R55, R110: the effect of the end-of-kernel marker, ECALL and EBREAK is their trap. R112, R236: a privileged instruction without SYS in
PCC, and an instruction kept to context 0 of its core in another context, raise PRIV with TVAL 0 and do nothing else. -/
def Obligations.TrapInstructions : Prop :=
  (∀ i t (s : State), trapOf i = some t → Ready [] [] 0 s → exec i s = .next (s.trapMe t))
  ∧ (∀ i (s : State),
      (needsSys i = true → s.me.sys = false → exec i s = .next (s.trapMe { cause := .priv, tval := 0, tcap := 0 }))
      ∧ (needsHead i = true → s.cur % 16 ≠ 0 → exec i s = .next (s.trapMe { cause := .priv, tval := 0, tcap := 0 })))

/-- R46: without SYS in PCC any access to a privileged CSR, and any write of ADMIT outside context 0, raises PRIV with the number of the
register in TVAL; a CSR number that Table 1.8 does not give raises ILLEGAL with the instruction word. -/
def Obligations.CsrPrivilege : Prop :=
  ∀ i (a : IArgs) (s : State) (reg : Nat),
    let n := a.imm.toNat
    (i = .csrr a ∧ reg = a.rd.val) ∨ (i = .csrw a ∧ reg = a.rs1.val) ∨ ((i = .csrs a ∨ i = .csrc a) ∧ reg = 0 ∧ n ≠ 0x004 ∧ n ≠ 0x050) →
    (csrKnown n = false → exec i s = .next (s.trapMe (illegalOf ((encode i).getD 0))))
    ∧ (csrKnown n = true → (n = 0x004 → reg ≠ 31) →
      (csrPriv n = true ∧ s.me.sys = false) ∨ (n = 0x021 ∧ i ≠ .csrr a ∧ s.cur % 16 ≠ 0) →
      exec i s = .next (s.trapMe { cause := .priv, tval := BitVec.ofNat 64 n, tcap := 0 }))

/-- R220: trap entry writes TCAUSE, TEPC, TVAL and TCAP, pushes a frame with PCC, PC, c30, c31 and the REP progress, and goes to the handler
of TVEC, and no other register, strand or byte of memory changes. R222: TRET pops that frame and goes on at TEPC; without a handler under
way it raises ILLEGAL, and over a CCALL frame TSTACK. -/
def Obligations.TrapEntryReturn : Prop :=
  (∀ (s : State) (t : TrapInfo), swf Strand.reset s.strands = true → s.me.frames.length < 32 → tvecOk s s.myPart = true →
      s.me.droppedBy (rc 31) = [] →
      let old := s.me.commitAll
      let u := (s.trapMe t).me
      u.tcause = BitVec.ofNat 64 t.cause.code.toNat ∧ u.tepc = BitVec.ofInt 64 (s.me.pcc.base + s.me.pc) ∧ u.tval = t.tval ∧ u.tcap = t.tcap
      ∧ u.frames = { pcc := s.me.pcc, retoff := s.me.pc, c30 := old.readC 30, c31 := old.readC 31, repsave := s.me.trep, trap := true } :: s.me.frames
      ∧ u.trep = s.me.repdone ∧ u.repdone = 0 ∧ u.pcc = s.myPart.tvecCode.unsealed ∧ u.pc = 0 ∧ u.readC 31 = s.myPart.tvecData.unsealed
      ∧ u.status = .running ∧ u.bskip = false ∧ u.nextIssue = s.cycle + 1 ∧ (∀ r, u.readX r = old.readX r) ∧ (∀ r, r ≠ 31 → u.readC r = old.readC r)
      ∧ (∀ r, u.readV r = old.readV r) ∧ (∀ r, u.readP r = old.readP r)
      ∧ (∀ n, n ≠ s.cur → (s.trapMe t).strand n = s.strand n) ∧ (∀ pa, (s.trapMe t).byte pa = s.byte pa))
  ∧ (∀ (a : IArgs) (s : State), Ready [] [rc 30, rc 31] 0 s → s.me.sys = true →
      (∀ f rest, s.me.frames = f :: rest → f.trap = true →
        exec (.tret a) s = .next (s.retire
          { (((s.me.issued none [rc 30, rc 31]).setC 30 f.c30).setC 31 f.c31).jumped s.cycle a.sc (s.me.tepc.toInt - f.pcc.base) with
            frames := rest, pcc := f.pcc, repdone := s.me.trep, trep := f.repsave, bskip := true }))
      ∧ ((∀ f ∈ s.me.frames, f.trap = false) →
        exec (.tret a) s = .next (s.trapMe { cause := .illegal, tval := BitVec.ofNat 64 ((encode (.tret a)).getD 0), tcap := 0 }))
      ∧ (∀ f rest, s.me.frames = f :: rest → f.trap = false → (∃ g ∈ rest, g.trap = true) →
        exec (.tret a) s = .next (s.trapMe { cause := .tstack, tval := 0, tcap := 0 })))

/-- R4, R46, R47, R113, R114, R219: CSRR of each CSR completes with the value that it holds (of a core CSR within 4 cy of a write, the old
one: R117), and of TVEC and CONVPOOL with their capabilities. After CSRW, CSRS or CSRC of a register with RW fields those fields hold what
the form gives and the others read as before the write; CSRW of TVEC and of CONVPOOL puts the capabilities there; a write of a read-only
register does nothing. No write changes another control register, a general register, memory or another strand. (A write of L1CFG moves
banks: the statement on banks.) The model's own readings in it: log 30, log 59, log 72. -/
def Obligations.CsrAccess : Prop :=
  (∀ (a : IArgs) (s : State), CsrAllowed s a.imm.toNat false →
      (a.imm.toNat ≠ 0x004 → a.imm.toNat ≠ 0x050 → Ready [] [rx a.rd] 2 s →
        exec (.csrr a) s = .next (s.retire
          (((s.me.issued none [rx a.rd]).put s.cycle 2 a.rd (.x (csrSeen (s.setMe (s.me.issued none [])) a.imm.toNat))).past s.cycle a.sc 4)))
      ∧ (a.imm.toNat = 0x050 → Ready [] [rc a.rd] 2 s →
        exec (.csrr a) s = .next (s.retire
          (((s.me.issued none [rc a.rd]).put s.cycle 2 a.rd (.c s.myPart.convpool)).past s.cycle a.sc 4)))
      ∧ (a.imm.toNat = 0x004 → a.rd ≠ 31 → Ready [] [rc a.rd, rc (a.rd + 1)] 2 s →
        exec (.csrr a) s = .next (s.retire
          ((((s.me.issued none [rc a.rd, rc (a.rd + 1)]).put s.cycle 2 a.rd (.c s.myPart.tvecCode)).put s.cycle 2 (a.rd.val + 1)
            (.c s.myPart.tvecData)).past s.cycle a.sc 4))))
  ∧ (∀ i a f (s : State) (m : Word), csrWriter i = some (a, f) → CsrAllowed s a.imm.toNat true → Ready [rx a.rs1] [] 0 s → s.Canonical →
      (s.pidOf s.cur).isSome = true → rwFields a.imm.toNat = some m →
      let n := a.imm.toNat
      let old := csrNow (s.setMe (s.me.issued none [])) n
      ∃ s', exec i s = .next s' ∧ s.csrKept s' n ∧ csrNow s' n = (if n = 0x005 then old &&& ~~~m else 0) ||| f old (s.me.readX a.rs1) &&& m)
  ∧ (∀ i a f (s : State), csrWriter i = some (a, f) → CsrAllowed s a.imm.toNat true → Ready [rx a.rs1] [] 0 s →
      rwFields a.imm.toNat = none → a.imm.toNat ∉ [0x004, 0x022, 0x050] →
      exec i s = .next (s.retire ((s.me.issued none []).past s.cycle a.sc 4)))
  ∧ ∀ (a : IArgs) (s : State), CsrAllowed s a.imm.toNat true → s.Canonical → (s.pidOf s.cur).isSome = true →
      (a.imm.toNat = 0x004 → a.rs1 ≠ 31 → Ready [rc a.rs1, rc (a.rs1 + 1)] [] 0 s → ∃ s', exec (.csrw a) s = .next s' ∧ s.csrKept s' 0x004
        ∧ s'.myPart.tvecCode = s.me.readC a.rs1 ∧ s'.myPart.tvecData = s.me.readC (a.rs1 + 1))
      ∧ (a.imm.toNat = 0x050 → Ready [rc a.rs1] [] 0 s → ∃ s', exec (.csrw a) s = .next s' ∧ s.csrKept s' 0x050
        ∧ s'.myPart.convpool = s.me.readC a.rs1)


/-- R170 to R174: an instruction of major 0x18 whose source passes the checks gives the derived capability if its shape is one a capability
can have, and raises CAP_DERIVE with the operand otherwise. Its base is cut to the 55 bits of its field (R7). The model's own reading in
it: log 14. -/
def Obligations.Derivation : Prop :=
  ∀ i a op (s : State), derivation i = some (a, op) → Ready [rc a.rs1, rx a.rs2] [rc a.rd] 3 s →
    let c := s.me.readC a.rs1
    let x := s.me.readX a.rs2
    let t := s.me.issued (if a.sr then some (rc a.rs1) else none) [rc a.rd]
    derivable i c x = true →
    (∀ v, op c.view x = some v → shaped v = true →
      exec i s = .next (s.retire
        ((t.put s.cycle 3 a.rd (.c { ({ v with base := v.base % 2 ^ 55 } : View).cap with tag := true })).past s.cycle a.sc 4)))
    ∧ ((op c.view x).all (fun v => !shaped v) = true →
      exec i s = .next (s.trapMe { cause := .capDerive, tval := x, tcap := BitVec.ofNat 64 a.rs1 }))

/-- R31: for a dense source of whole-byte format whose elements lie in the address space, every element of a derived capability is at the
address of an element of its source, and it has no permission, no reach, no object and no generation that its source lacks. -/
def Obligations.DerivationNarrows : Prop :=
  ∀ i a op (c : Cap) (x : Word) (v : View), derivation i = some (a, op) → derivable i c x = true → op c.view x = some v → shaped v = true →
    c.sparse = 0 → c.fmt ≠ 0x18 →
    (∀ idx, InBounds c idx → 0 ≤ elementAddr c idx ∧ elementAddr c idx < 2 ^ 55) →
    let d : Cap := { v.cap with tag := true }
    (∀ idx, InBounds d idx → ∃ idx', InBounds c idx' ∧ elementAddr d idx = elementAddr c idx')
    ∧ d.perms &&& ~~~c.perms = 0 ∧ d.reach ≤ c.reach ∧ d.objid = c.objid ∧ d.gen = c.gen ∧ d.otype = c.otype

/-- R178 to R183: CBIND, CUNBIND and CKEY complete with the sealed, unsealed or key capability. CCALL through a sealed pair pushes a frame and
enters the code capability unsealed, with the data capability in c31; CRET goes back to the frame. Both clear every register but x10 to
x17 and c1 to c8. -/
def Obligations.SealingAndCompartments : Prop :=
  ((∀ i a f (s : State) (r : Cap), sealing i = some (a, f) → Ready [rc a.rs1, rc a.rs2] [rc a.rd] 0 s →
      f (s.me.readC a.rs1) (s.me.readC a.rs2) = some r →
      exec i s = .next (s.retire (((s.me.issued (if a.sr then some (rc a.rs1) else none) [rc a.rd]).put s.cycle 0 a.rd (.c r)).past
        s.cycle a.sc 4)))
    ∧ ∀ (a : RArgs) (s : State), Ready [rx a.rs1] [rc a.rd] 0 s → s.me.sys = true →
      0 < (s.me.readX a.rs1).toNat → (s.me.readX a.rs1).toNat ≤ 4095 →
      ∃ k : Cap, exec (.ckey a) s = .next (s.retire
          (((s.me.issued (if a.sr then some (rx a.rs1) else none) [rc a.rd]).put s.cycle 0 a.rd (.c k)).past s.cycle a.sc 4))
        ∧ k.tag = true ∧ k.otype = (s.me.readX a.rs1).toNat ∧ k.fmt = 0x20 ∧ k.sparse = 0 ∧ k.layout = 0 ∧ k.rank = 1 ∧ k.extent 0 = 0
        ∧ (∀ n, k.stride n = 0) ∧ k.base = 0 ∧ k.gen = 0 ∧ k.objid = 0xFFFFF ∧ k.perms = 0x0C00 ∧ k.reach = 3)
  ∧ ((∀ (a : RArgs) (s : State), Ready [rc a.rs1, rc a.rs2, rc 30, rc 31] wiped 0 s → s.me.RegsOk →
      let ck := s.me.readC a.rs1
      let cd := s.me.readC a.rs2
      ck.tag = true → cd.tag = true → ck.otype ≠ 0 → cd.otype = ck.otype → staleRecord s s.myPart ck = none →
      staleRecord s s.myPart cd = none → ck.perms.getLsbD 5 = true → codeShape ck = true → s.me.frames.length < 32 →
      ∃ u, exec (.ccall a) s = .next (s.retire u)
        ∧ Switched (s.me.issued (if a.sr then some (rc a.rs1) else none) wiped) u Cap.null cd.unsealed
        ∧ u.frames = { pcc := s.me.pcc, retoff := s.me.pc + 4, c30 := s.me.readC 30, c31 := s.me.readC 31, repsave := 0, trap := false } ::
          s.me.frames
        ∧ u.pcc = ck.unsealed ∧ u.pc = 0 ∧ u.status = .running)
    ∧ ∀ (a : RArgs) (s : State) f rest, Ready [] wiped 0 s → s.me.RegsOk → s.me.frames = f :: rest → f.trap = false →
      ∃ u, exec (.cret a) s = .next (s.retire u) ∧ Switched s.me u f.c30 f.c31
        ∧ u.frames = rest ∧ u.pcc = f.pcc ∧ u.pc = f.retoff ∧ u.status = .running)

/-- R196 to R200: every AMO that passes its checks completes; x[rd] gets the old value, extended, and the element the new one, in the order of
its scope; AMOCAS writes only on a match, AMOFADD rounds to nearest and raises its flags. The model's own readings in it: log 6, log 18. -/
def Obligations.Atomics : Prop :=
  ∀ (s : State) (e : Elem),
    (∀ i a code op, atomicOf i = some (a, code, op) → Ready [rc a.cs, rx a.rs2] [rx a.rd] 0 s → CanRelease s a.ord a.scope →
      let c := s.me.readC a.cs
      let w := esize c.fmt
      let old := s.load e.pa w
      AtomicReach s a.cs (decide (c.sparse = 0) && decide (5 ≤ c.fmt) && decide (c.fmt ≤ 8)) e →
      exec i s = .next (s.storedIn
        ((((s.releasing a.ord a.scope).touchHome e w true).atomicWrite code e w (s.me.readX a.rs2) (s.me.readX a.rd)
          (some (op w old ((s.me.readX a.rs2).toNat % 2 ^ (8 * w))))).acquiring a.ord a.scope)
        (((s.me.issued none [rx a.rd]).put s.cycle 0 a.rd (.x (extended w (fmtSigned c.fmt) old))).past s.cycle a.sc 4)))
    ∧ (∀ a : AArgs, Ready [rc a.cs, rx a.rs2, rx a.rd] [rx a.rd] 0 s → CanRelease s a.ord a.scope →
      let c := s.me.readC a.cs
      let w := esize c.fmt
      let old := s.load e.pa w
      let same := decide (old = (s.me.readX a.rd).toNat % 2 ^ (8 * w))
      let home := (s.releasing a.ord a.scope).touchHome e w same
      AtomicReach s a.cs (decide (c.sparse = 0) && decide (5 ≤ c.fmt) && decide (c.fmt ≤ 8)) e →
      exec (.amocas a) s = .next (s.storedIn
        ((home.atomicWrite 9 e w (s.me.readX a.rs2) (s.me.readX a.rd)
          (if same then some ((s.me.readX a.rs2).toNat % 2 ^ (8 * w)) else none)).acquiring a.ord a.scope)
        (((s.me.issued none [rx a.rd]).put s.cycle 0 a.rd (.x (extended w (fmtSigned c.fmt) old))).past s.cycle a.sc 4)))
    ∧ ∀ a : AArgs, Ready [rc a.cs, rx a.rs2] [rx a.rd] 0 s → CanRelease s a.ord a.scope →
      let c := s.me.readC a.cs
      let f := fp32
      let old := s.load e.pa 4
      let y := (s.me.readX a.rs2).toNat % 2 ^ 32
      let r := rounded f .rne ((f.decode old).2 ||| (f.decode y).2) ((f.decode old).1.add (f.decode y).1 .rne)
      AtomicReach s a.cs (decide (c.sparse = 0) && decide (c.fmt = 0x12)) e →
      exec (.amofadd a) s = .next (s.storedIn
        ((((s.releasing a.ord a.scope).touchHome e 4 true).atomicWrite 10 e 4 (s.me.readX a.rs2) (s.me.readX a.rd) (some r.1)).acquiring
          a.ord a.scope)
        ({ (s.me.issued none [rx a.rd]).put s.cycle 0 a.rd (.x (BitVec.ofNat 64 old)) with fflags := s.me.fflags ||| r.2 }.past
          s.cycle a.sc 4))

/-- R197, R200: LD.ACQ, ST.REL and FENCE complete with their access, after what a release waits for, and with the cache effects of their
scope. The model's own reading in it: log 18. -/
def Obligations.OrderedAccess : Prop :=
  ∀ (a : AArgs) (s : State) (e : Elem),
    let c := s.me.readC a.cs
    let w := esize c.fmt
    (Ready [rc a.cs] [rx a.rd] 0 s → ElemReach s a.cs [] useRead e →
      exec (.ldAcq a) s = .next (s.retireIn ((s.touch e w false).acquiring 1 a.scope)
        (((s.me.issued none [rx a.rd]).put s.cycle 0 a.rd (.x (extended w (fmtSigned c.fmt) (s.load e.pa w)))).past s.cycle a.sc 4)))
    ∧ (Ready [rc a.cs, rx a.rs2] [] 0 s → CanRelease s 2 a.scope → ElemReach s a.cs [] useWrite e →
      exec (.stRel a) s = .next (s.storedIn
        ((s.releasing 2 a.scope).storeElem e w ((s.me.readX a.rs2).toNat % 2 ^ (8 * w)))
        ((s.me.issued none []).past s.cycle a.sc 4)))
    ∧ (Ready [] [] 0 s → CanRelease s a.ord a.scope →
      exec (.fence a) s = .next (s.retireIn ((s.releasing a.ord a.scope).acquiring a.ord a.scope)
        ((s.me.issued none []).past s.cycle a.sc 4)))

/-- R201 to R204: LDS, WAITA and STS whose word is full (for STS, empty) complete; LDF reads and SETFE writes the two bits; a change of a word
whose waiter bit is set wakes as R204 says. Otherwise the request waits at its bank with a time limit of 4,096 cy and the strand parks.
The model's own readings in it: log 6, log 23, log 24, log 71. -/
def Obligations.FullEmpty : Prop :=
  (∀ (a : RArgs) (s : State) (e : Elem), Settled s →
      let sync := if a.sr then some (rc a.rs1) else none
      let t := s.me.issued sync [rx a.rd]
      let word : RegVal := .x (BitVec.ofNat 64 (s.load e.pa 8))
      let wake := s.waiterBit e.pa
      (Ready [rc a.rs1, rx a.rs2] [rx a.rd] 0 s → WordReach s a 0x0081 useRead e →
        (s.fullBit e.pa = true → exec (.lds a) s = .next (s.retireIn
          ((((s.touch e 8 false).setFe e.pa false false).acquiring 1 (wordScope s e.pa)).settleWord e.pa)
          (((t.put s.cycle 0 a.rd word).woken wake e.va a.rs1).past s.cycle a.sc 4)))
        ∧ (s.fullBit e.pa = true → exec (.waita a) s = .next (s.retireIn
          (((s.touch e 8 false).acquiring 1 (wordScope s e.pa)).settleWord e.pa) ((t.put s.cycle 0 a.rd word).past s.cycle a.sc 4)))
        ∧ exec (.ldf a) s = .next (s.retireIn (s.touch e 8 false)
          ((t.put s.cycle 0 a.rd (.x (s.wordBits e.pa))).past s.cycle a.sc 4)))
      ∧ (Ready [rc a.rs1, rx a.rs2, rx a.rd] [] 0 s → WordReach s a 0x0082 useWrite e → s.fullBit e.pa = false →
        exec (.sts a) s = .next (s.retireIn
          (((((s.releasing 2 (wordScope s e.pa)).touch e 8 true).store e.pa 8 (s.me.readX a.rd).toNat).setFe e.pa true false).settleWord e.pa)
          (((s.me.issued sync []).woken wake e.va a.rs1).past s.cycle a.sc 4)))
      ∧ (Ready [rc a.rs1, rx a.rs2, rx a.rd] [rx a.rd] 0 s → WordReach s a 0x0083 useWrite e →
        let x := s.me.readX a.rd
        let f := if x.getLsbD 8 then x.getLsbD 0 else s.fullBit e.pa
        let w := if x.getLsbD 9 then x.getLsbD 1 else wake
        let hit := w && (f != s.fullBit e.pa)
        exec (.setfe a) s = .next (s.retireIn (((s.touch e 8 true).setFe e.pa f (w && !hit)).settleWord e.pa)
          (((t.put s.cycle 0 a.rd (.x (s.wordBits e.pa))).woken hit e.va a.rs1).past s.cycle a.sc 4))))
  ∧ (∀ (a : RArgs) (s : State) (e : Elem) (core b : Nat), s.bankOf e.pa = some (core, b) →
      let wait (s1 : State) (k : FeKind) : State :=
        (s1.setCore core { s1.core core with reqs := (s1.core core).reqs ++
          [{ strand := s.cur, kind := k, args := a, pa := e.pa, va := e.va, value := s.me.readX a.rd, due := s.cycle + 4096 }] }).setMe
          (s.me.parked .request)
      (Ready [rc a.rs1, rx a.rs2] [rx a.rd] 0 s → WordReach s a 0x0081 useRead e → s.fullBit e.pa = false →
        exec (.lds a) s = .next (wait (s.touch e 8 false) .lds) ∧ exec (.waita a) s = .next (wait (s.touch e 8 false) .waita))
      ∧ (Ready [rc a.rs1, rx a.rs2, rx a.rd] [] 0 s → WordReach s a 0x0082 useWrite e → s.fullBit e.pa = true →
        exec (.sts a) s = .next (wait ((s.releasing 2 (wordScope s e.pa)).touch e 8 false) .sts)))

/-- R26, R27, R205: MOVG puts a value on its way to g, visible 4 cy later; MOVFG reads g, empties it under SR, and parks on an empty one. -/
def Obligations.SharedRegisters : Prop :=
  ∀ (a : RArgs) (s : State),
    (Ready [rx a.rs1] [] 0 s → exec (.movg a) s = .next (s.retireIn
      (s.setMyCore { s.myCore with gPend := s.myCore.gPend ++ [{ due := s.cycle + 4, reg := a.rd, val := s.me.readX a.rs1, ctx := s.cur % 16 }] })
      ((s.me.issued (if a.sr then some (rx a.rs1) else none) []).past s.cycle a.sc 4)))
    ∧ (Ready [] [rx a.rd] 2 s → s.myCore.gEmpty.getLsbD a.rs1 = false → exec (.movfg a) s = .next (s.retireIn
      (if a.sr then s.setMyCore { s.myCore with gEmpty := maskSet s.myCore.gEmpty a.rs1 } else s)
      (((s.me.issued none [rx a.rd]).put s.cycle 2 a.rd (.x (sget 0 s.myCore.g a.rs1))).past s.cycle a.sc 4)))
    ∧ (Ready [] [rx a.rd] 2 s → s.myCore.gEmpty.getLsbD a.rs1 = true →
      exec (.movfg a) s = .next (s.setMe (s.me.parked (.greg a))))

/-- R207 to R213: RDEF records its words and continues after them, RTAG ties a register, RDROP drops one that may be dropped (its old value is
then free: log 15), RPIN and RINV untie. An instruction that reads a dropped register acts as if the register held what its recipe of one
instruction gives. The model's own readings in it: log 7, log 15, log 26. -/
def Obligations.Recipes : Prop :=
  (∀ (a : RArgs) (s : State), Ready [] [] 0 s →
      let t := s.me.issued none []
      let r := recipeReg a
      let slot := a.rs1.val
      (∀ ws es off, recordWords s (s.me.pc + 4) a.rs2 = .ok (ws, es, off) →
        exec (.rdef a) s = .next (s.retireIn (s.touchFetch es)
          ({ (t.tiedTo slot).foldl Strand.untie t with recipes := sset [] s.me.recipes slot ws }.jumped s.cycle a.sc off)))
      ∧ (∀ d k, recipeDest (s.me.recipe slot) = some d → d.cls = r.cls → r ∉ s.me.sources slot → tieKey r = some k →
        exec (.rtag a) s = .next (s.retire ((if r = rx 0 then t else { t with ties := sset 0 s.me.ties k (slot + 1) }).past s.cycle a.sc 4)))
      ∧ (s.me.mayDrop r = false → exec (.rdrop a) s = .next (s.retire (t.past s.cycle a.sc 4)))
      ∧ (s.me.mayDrop r = true → r.cls = .x → ∃ v, exec (.rdrop a) s = .next (s.retireIn { s with freeCtr := s.freeCtr + 1 }
          ({ t with dropX := maskSet s.me.dropX r.num, x := sset 0 s.me.x r.num v }.past s.cycle a.sc 4)))
      ∧ (s.me.mayDrop r = true → r.cls = .v → ∃ v, exec (.rdrop a) s = .next (s.retireIn { s with freeCtr := s.freeCtr + 16 }
          ({ t with dropV := maskSet s.me.dropV r.num, v := sset 0 s.me.v r.num v }.past s.cycle a.sc 4)))
      ∧ exec (.rpin a) s = .next (s.retire ((if s.me.tieOf r = slot + 1 then t.untie r else t).past s.cycle a.sc 4))
      ∧ exec (.rinv a) s = .next (s.retire
          ({ (t.tiedTo slot).foldl Strand.untie t with recipes := sset [] s.me.recipes slot [] }.past s.cycle a.sc 4)))
  ∧ (∀ (i j : Instr) (p q : Plain) (s : State) (r d : RegRef) (w len : Nat),
      plainOf i = some p → plainOf j = some q → r ∈ p.reads → s.me.isDropped r = true →
      s.me.recipe (s.me.tieOf r - 1) = [w] → decodeWord w = .ok (.whole j) len → q.sync = none → q.writes.head? = some d →
      let v := (q.eff s.cycle { s.me with pend := [] }).commitAll.value d
      let s' := s.setMe (s.me.setReg r.num v)
      (∀ k ∈ q.reads, s.me.isDropped k = false ∧ s.me.isFull k = true) → Ready p.reads p.writes p.lat s' →
      exec i s = exec i s')

/-- R267 to R272: BARINIT, BARARR, BAREXP, BARWAIT and BARFLG complete with their update of the object, BARARR on an object without an arrival
to take and BARWAIT of the present phase park. With no parked arrival, an update after which ARR and PEND are both zero flips the phase,
reloads ARR and wakes the strands that wait there. The model's own readings in it: log 24, log 27. -/
def Obligations.Barriers : Prop :=
  (∀ (a : EqArgs) (s : State) (e : Elem), Settled s →
      let core := coreOf s.cur
      let b := s.barrier e.pa
      let x := (s.me.readX a.xc).toNat
      let t := s.me.issued none [rx a.xc]
      let u := (s.me.issued none []).past s.cycle a.sc 4
      (Ready [rc a.ca, rx a.xc] [] 0 s →
        (BarrierReach s a 0x0083 useWrite e → 0 < x → x < 4096 →
          exec (.barinit a) s = .next (s.retireIn (((s.touch e 16 true).releaseBarrier e.pa b.phase).updateBarrier core e.pa false
            { count := 0, flags := 0, exp := x, phase := false, arr := x, pend := 0 }) u))
        ∧ (BarrierReach s a 0x0083 useWrite e → exec (.barexp a) s = .next (s.retireIn
            ((s.touch e 16 true).updateBarrier core e.pa true { b with pend := (b.pend + x) % 2 ^ 40 }) u))
        ∧ (BarrierReach s a 0x0081 useRead e → b.phase ≠ (s.me.readX a.xc).getLsbD 0 →
            exec (.barwait a) s = .next (s.retireIn (s.touch e 16 false) u))
        ∧ (BarrierReach s a 0x0081 useRead e → b.phase = (s.me.readX a.xc).getLsbD 0 →
            exec (.barwait a) s = .next (s.setMe (s.me.parked (.bar e.pa a)))))
      ∧ (Ready [rc a.ca] [rx a.xc] 0 s → BarrierReach s a 0x0083 useWrite e →
        (b.arr ≠ 0 → exec (.bararr a) s = .next (s.retireIn
          ((s.touch e 16 true).updateBarrier core e.pa true { b with arr := b.arr - 1 })
          ((t.put s.cycle 0 a.xc (.x (if b.phase then 1 else 0))).past s.cycle a.sc 4)))
        ∧ (b.arr = 0 → exec (.bararr a) s = .next (((s.touch e 16 true).setCore core { (s.touch e 16 true).core core with
            arrivals := (s.touch e 16 true).myCore.arrivals ++ [{ strand := s.cur, pa := e.pa, args := a }] }).setMe (s.me.parked .request)))
        ∧ exec (.barflg a) s = .next (s.retireIn ((s.touch e 16 true).updateBarrier core e.pa false { b with flags := 0 })
          ((t.put s.cycle 0 a.xc (.x (BitVec.ofNat 64 b.flags))).past s.cycle a.sc 4))))
  ∧ (∀ (s : State) (core bank pa : Nat) (b : Barrier), s.bankOf pa = some (core, bank) → s.bankOf (pa + 15) = some (core, bank) →
      Memory.wf s.mem → b.count < 2 ^ 36 → b.flags < 2 ^ 16 → b.exp < 2 ^ 12 → b.arr < 2 ^ 12 → b.pend < 2 ^ 40 →
      (∀ r ∈ (s.core core).arrivals, r.pa ≠ pa) → swf Strand.reset s.strands = true →
      let s' := s.updateBarrier core pa true b
      let done := decide (b.arr = 0 ∧ b.pend = 0)
      s'.barrier pa = (if done then { b with phase := !b.phase, arr := b.exp, count := (b.count + 1) % 2 ^ 36 } else b)
      ∧ (∀ n a, (s.strand n).wait = .bar pa a → s'.strand n = if done then (s.strand n).goOn s.cycle a.sc else s.strand n)
      ∧ (∀ n, (∀ a, (s.strand n).wait ≠ .bar pa a) → s'.strand n = s.strand n)
      ∧ ∀ q, q < pa ∨ pa + 16 ≤ q → s'.byte q = s.byte q)

/-- R260: BANKFMT writes the format of its bank once no engine operation addresses it, zeroing the bank as it leaves a sealed format. R263,
R264: SPLOCK takes a free lock or waits, SPUNLOCK releases. R253: a write of L1CFG that changes the split zeroes exactly the banks that
change role, with their tags and full/empty bits. The model's own readings in it: log 31, log 41. -/
def Obligations.Banks : Prop :=
  (∀ (a : EqArgs) (s : State) (b : Nat), FormatReach s a b →
      let waits := addressed s (coreOf s.cur) (fun k => decide (k = b))
      (waits = false → exec (.bankfmt a) s = .next (s.formatted a b))
      ∧ (waits = true → exec (.bankfmt a) s = .next (s.setMe (s.me.parked (.bankfmt a)))))
  ∧ (∀ (a : EqArgs) (s : State) (b : Nat), Settled s → Ready [rc a.ca] [] 0 s → LockReach s a b →
      let k := s.myCore
      let s1 := s.translated (s.me.readC a.ca).base useRead
      let u := (s.me.issued none []).past s.cycle a.sc 4
      (k.lockedBy s.cur = none → k.lockOf b = none → exec (.splock a) s = .next (s.retireIn
        (s1.setMyCore { s1.myCore with locks := sset none k.locks b (some { holder := s.cur, count := 0 }) }) u))
      ∧ (k.lockedBy s.cur = none → k.lockOf b ≠ none → exec (.splock a) s = .next
        ((s1.setMyCore { s1.myCore with lockQ := k.lockQ ++ [(b, s.cur, a.sc)] }).setMe (s.me.parked .request)))
      ∧ (k.lockedBy s.cur = some b → exec (.splock a) s = .next (s.retireIn s1 u))
      ∧ (k.lockedBy s.cur = some b → exec (.spunlock a) s = .next (s.retireIn (s1.unlock (coreOf s.cur) b) u))
      ∧ (k.lockedBy s.cur ≠ some b → exec (.spunlock a) s = .next (s.retireIn s1 u)))
  ∧ (∀ i a f (s : State), csrWriter i = some (a, f) → a.imm.toNat = 0x022 → CsrAllowed s 0x022 true → Ready [rx a.rs1] [] 0 s →
      Memory.wf s.mem → swf false s.tags = true → swf 0 s.fe = true → swf Core.reset s.cores = true → s.lockFree →
      s.cur < 4096 →
      let core := coreOf s.cur
      let nb := (f (BitVec.ofNat 64 s.myCore.nb.toNat) (s.me.readX a.rs1)).setWidth 2
      let role (v : BitVec 2) (b : Nat) : Bool := decide (l1First v ≤ b)
      ((nb = 3 ∨ nb = s.myCore.nb) → ∃ t, exec i s = .next t ∧ t.myCore.nb = s.myCore.nb ∧ t.mem = s.mem ∧ t.tags = s.tags ∧ t.fe = s.fe)
      ∧ (nb ≠ 3 → nb ≠ s.myCore.nb → addressed s core (changesRole s.myCore.nb nb) = false →
        ∃ t, exec i s = .next t ∧ t.myCore.nb = nb ∧ t.myCore.l1 = []
          ∧ (∀ b < 16, ∀ o < 2 ^ 16, role s.myCore.nb b ≠ role nb b → let pa := s.window core + b * 2 ^ 16 + o
              t.byte pa = 0 ∧ t.tagAt pa = false ∧ t.fullBit pa = false ∧ t.waiterBit pa = false ∧ t.myCore.bfmtOf b = 0)
          ∧ (∀ b < 16, ∀ o < 2 ^ 16, role s.myCore.nb b = role nb b → let pa := s.window core + b * 2 ^ 16 + o
              t.byte pa = s.byte pa ∧ t.tagAt pa = s.tagAt pa ∧ t.fullBit pa = s.fullBit pa)
          ∧ ∀ pa, (s.bankOf pa).map (·.1) ≠ some core → t.byte pa = s.byte pa ∧ t.tagAt pa = s.tagAt pa))

/-- R236 to R241: SPAWN returns 1 for a context in use and 2 for one not admitted, and else starts a child that holds the copies it names,
with the registers it awaits empty. REAP of a child that has ended frees its context and returns its status; of one that has not, it
parks. -/
def Obligations.Children : Prop :=
  (∀ (a : RArgs) (s : State),
      let d := s.me.readX a.rs2
      let e := s.me.readC a.rs1
      let k := 16 * coreOf s.cur + operand d 0 4
      let t := (s.me.issued (if a.sr then some (rc a.rs1) else none) [rx a.rd])
      let done (s1 : State) (v : Nat) : Answer := .next (s.retireIn s1 ((t.put s.cycle 0 a.rd (.x (BitVec.ofNat 64 v))).past s.cycle a.sc 4))
      Settled s → s.cur % 16 = 0 → spawnOk d = true →
      e.tag = true → e.otype = 0 → staleRecord s s.myPart e = none → e.perms.getLsbD 5 = true → codeShape e = true →
      Ready (rc a.rs1 :: rx a.rs2 :: spawnCopies d) [rx a.rd] 0 s →
      ((s.strand k).status ≠ .free → exec (.spawn a) s = done s 1)
      ∧ ((s.strand k).status = .free → s.myCore.admitMask.getLsbD (operand d 0 4) = true → exec (.spawn a) s = done s 2)
      ∧ ((s.strand k).status = .free → s.myCore.admitMask.getLsbD (operand d 0 4) = false →
        ∃ c : Strand, exec (.spawn a) s = done (s.setStrand k c) 0
          ∧ c.status = .running ∧ c.pcc = e ∧ c.pc = 0 ∧ c.child = true ∧ c.task = s.me.task ∧ c.frames = [] ∧ c.nextIssue = s.cycle + 1
          ∧ c.fflags = 0 ∧ c.frm = 0 ∧ c.schk = false
          ∧ (∀ r < 32, c.readX r = if rx r ∈ spawnCopies d then s.me.readX r else 0)
          ∧ (∀ r < 32, c.readC r = if rc r ∈ spawnCopies d then s.me.readC r else Cap.null)
          ∧ (∀ r < 32, c.readV r = if rv r ∈ spawnCopies d then s.me.readV r else 0)
          ∧ (∀ r < 32, c.isFull (rx r) = decide (rx r ∉ spawnAwaits d)) ∧ ∀ r < 32, c.isFull (rc r) = decide (rc r ∉ spawnAwaits d)))
  ∧ (∀ (a : RArgs) (s : State), Settled s → s.cur % 16 = 0 → Ready [rx a.rs1] [rx a.rd] 0 s →
      let x := (s.me.readX a.rs1).toNat
      let k := 16 * coreOf s.cur + x
      let t := s.me.issued (if a.sr then some (rx a.rs1) else none) [rx a.rd]
      0 < x → x < 16 → (s.strand k).child = true →
      ((s.strand k).status = .ended → exec (.reap a) s = .next (s.retireIn
        (s.setStrand k { Strand.reset with bkpt := (s.strand k).bkpt, frameSel := (s.strand k).frameSel })
        ((t.put s.cycle 0 a.rd (.x (s.strand k).endStatus)).past s.cycle a.sc 4)))
      ∧ ((s.strand k).status ≠ .ended → (s.strand k).status ≠ .free → exec (.reap a) s = .next (s.setMe (s.me.parked .reap))))

/-- R242 to R245: YIELD takes the token or falls asleep; WAKE wakes a sleeping strand of its partition, leaves a token with one awake and
returns 2 for the rest, the peer card of an unpaired partition among them (to the peer card of a paired one: 0, 1 or 2, the model's choice
in the log on PEER_WAKE, and it waits while the Seam retrains); PARK holds and releases the contexts of its mask and returns which are
held. The model's own readings in it: log 20, log 29, log 76. -/
def Obligations.SleepAndHold : Prop :=
  (∀ (a : RArgs) (s : State), Settled s →
      (Ready [] [] 0 s →
        let u := (s.me.issued none []).past s.cycle a.sc 4
        exec (.yield a) s = .next (s.retire (if s.me.token then { u with token := false } else { u with status := .asleep })))
      ∧ (Ready [rx a.rs1] [rx a.rd] 0 s →
        let n := (s.me.readX a.rs1).toNat
        let t := s.me.issued (if a.sr then some (rx a.rs1) else none) [rx a.rd]
        let done (s1 : State) (v : Nat) : Answer := .next (s.retireIn s1 ((t.put s.cycle 0 a.rd (.x (BitVec.ofNat 64 v))).past s.cycle a.sc 4))
        let w := s.strand n
        let mine := (s.pidOf s.cur).isSome ∧ s.pidOf n = s.pidOf s.cur
        let live := w.status ≠ .free ∧ w.status ≠ .ended ∧ w.status ≠ .stopped
        (n < 2 ^ 12 → ¬(mine ∧ live) → exec (.wake a) s = done s 2)
        ∧ (n < 2 ^ 12 → n ≠ s.cur → mine → w.status = .asleep → exec (.wake a) s =
            done (s.setStrand n { w with status := .running, nextIssue := Max.max w.nextIssue (s.cycle + 1) }) 0)
        ∧ (n < 2 ^ 12 → n ≠ s.cur → mine → live → w.status ≠ .asleep → exec (.wake a) s = done (s.setStrand n { w with token := true }) 1)
        ∧ (n = s.cur → n < 2 ^ 12 → mine → exec (.wake a) s = .next (s.retire
            ({ t with token := true }.put s.cycle 0 a.rd (.x 1) |>.past s.cycle a.sc 4)))
        ∧ (2 ^ 12 ≤ n → n < 2 ^ 13 → s.seam = .retraining → s.myPart.paired.isSome = true →
            exec (.wake a) s = .next (s.setMe (s.me.parked .retry)))
        ∧ (2 ^ 12 ≤ n → n < 2 ^ 13 → s.myPart.paired = none → exec (.wake a) s = done s 2)
        ∧ (2 ^ 12 ≤ n → n < 2 ^ 13 → s.seam ≠ .retraining → s.myPart.paired.isSome = true → ∃ s1 r, r ≤ 2 ∧ exec (.wake a) s = done s1 r ∧ s1.strands = s.strands ∧ s1.mem = s.mem)))
  ∧ (∀ (a : RArgs) (s : State), Settled s → s.cur % 16 = 0 → Ready [rx a.rs1] [rx a.rd] 0 s →
      let x := s.me.readX a.rs1
      let t := s.me.issued (if a.sr then some (rx a.rs1) else none) [rx a.rd]
      let ctx (k : Nat) : Nat := 16 * coreOf s.cur + k
      x.toNat < 2 ^ 17 → x.getLsbD 0 = false →
      (x.getLsbD 16 = true ∨ (∀ k < 16, x.getLsbD k = true → (s.strand (ctx k)).status ≠ .inMma)) →
      ∃ s1 v, exec (.park a) s = .next (s.retireIn s1 ((t.put s.cycle 0 a.rd (.x v)).past s.cycle a.sc 4)) ∧ s1.mem = s.mem ∧ v.toNat < 2 ^ 16
        ∧ ∀ k < 16, (s1.strand (ctx k)).hold = v.getLsbD k
          ∧ v.getLsbD k = (if x.getLsbD k = false then (s.strand (ctx k)).hold else if x.getLsbD 16 then false
              else (s.strand (ctx k)).hold || (s.strand (ctx k)).holdable))

/-- R108, R240: TEND of a child keeps its status for REAP, TEND of the strand that the dispatcher started frees its context, both release a
bank lock; while an operation, a child or a launch of its own is outstanding it parks. -/
def Obligations.StrandEnds : Prop :=
  ∀ (a : IArgs) (s : State), Settled s → swf Core.reset s.cores = true → swf none s.myCore.locks = true → Ready [rx 10] [] 0 s →
    s.me.frames = [] → s.me.wait = .none →
    let kept : Strand := { Strand.reset with bkpt := s.me.bkpt, frameSel := s.me.frameSel }
    let free (t : State) : Prop := ∀ b < 16, ∀ l, t.myCore.lockOf b = some l → l.holder ≠ s.cur
    (s.me.child = true → opsPending s s.cur = false → ∃ t, exec (.tend a) s = .next t ∧ t.cur = s.cur
      ∧ t.me = { kept with status := .ended, child := true, task := s.me.task, endStatus := s.me.readX 10 } ∧ free t)
    ∧ (s.me.child = false → tendReady s s.cur = true → ∃ t, exec (.tend a) s = .next t ∧ t.cur = s.cur
      ∧ t.me = { kept with frameSel := t.me.frameSel } ∧ free t)
    ∧ (tendReady s s.cur = false → exec (.tend a) s = .next (s.setMe (s.me.parked (.tend (s.me.readX 10)))))

/-- R109: TEND while the trusted stack holds a frame raises TSTACK with the number of frames in TVAL and does nothing else. -/
def Obligations.TendTrap : Prop :=
  ∀ (a : IArgs) (s : State), Ready [rx 10] [] 0 s → s.me.frames ≠ [] →
    exec (.tend a) s = .next (s.trapMe { cause := .tstack, tval := BitVec.ofNat 64 s.me.frames.length, tcap := 0 })

/-- R277 to R291: MWLOAD, MZERO, MMA, MSTORE, MRDROW and MWRROW whose operands pass the checks enter the queue with the addresses of their
tile, and those that leave the rotation do so. MSTAT returns the queue length, what runs, the shadow plane and the flags (Table 11.7). The
model's own readings in it: log 6, log 28, log 32, log 80, log 90. -/
def Obligations.MatrixIssue : Prop :=
  (∀ s : State, swf Core.reset s.cores = true → s.myCore.mq.length < 16 →
      let t := s.me.issued none []
      (∀ (a : EfArgs) pas, let c := s.me.readC a.ca
        let e := a.q.val / 2 % 2 = 1
        Ready [rc a.ca] [] 0 s → ¬(e ∧ c.fmt = 0x18) → Allowed s c 0x0301 (mwShape c e) → TileReach s c useRead e (c.extent 0) (ext1 c 1) pas →
        exec (.mwload a) s = .next (s.retireIn ((s.touchTile c (c.extent 0) (ext1 c 1) false).withMat
          (.mwload (decide (a.q.val % 2 = 1)) e) c a.ca none pas []) (if e then (t.past s.cycle a.sc 4).inMatrix else t.past s.cycle a.sc 4)))
      ∧ (∀ (a : EfArgs) pas aux, let c := s.me.readC a.ca
        let d := s.me.readC (a.ca.val + 1)
        a.q.val / 2 % 2 = 1 → c.fmt = 0x18 → a.ca ≠ 31 → Ready [rc a.ca, rc (a.ca.val + 1)] [] 0 s →
        Allowed s c 0x0301 (mwShape c true) → TileReach s c useRead true (c.extent 0) (ext1 c 1) pas →
        Allowed s d 0x0301 (scaleShape d c) → TileReach s d useRead true 1 (ext1 c 1) aux →
        exec (.mwload a) s = .next (s.retireIn ((s.touchTile c (c.extent 0) (ext1 c 1) false).withMat
          (.mwload (decide (a.q.val % 2 = 1)) true) c a.ca (some d) pas aux) (t.past s.cycle a.sc 4).inMatrix))
      ∧ (∀ (a : EfArgs), Ready [] [] 0 s →
        exec (.mzero a) s = .next (s.retireIn (s.withMat (.mzero (a.q.val % 4)) Cap.null 0 none [] []) (t.past s.cycle a.sc 4)))
      ∧ (∀ (a : EArgs) pas, let c := s.me.readC a.ca
        let n := (s.me.readX a.xc).toNat
        let tr := a.cb.val / 2 % 2 = 1
        let e0 := if tr then n else c.extent 0
        let e1 := if tr then ext1 c 1 else n
        Ready [rc a.ca, rx a.xc] [] 0 s → 1 ≤ n → n ≤ 128 → Allowed s c 0x0101 (mmaShape c tr) → n ≤ ext1 c (if tr then 0 else 1) →
        TileReach s c useRead false e0 e1 pas →
        exec (.mma a) s = .next (s.retireIn ((s.touchTile c e0 e1 false).withMat
          (.mma (decide (a.cb.val % 2 = 1)) tr (decide (a.cb.val / 4 % 2 = 1)) a.f2.val n) c a.ca none pas [])
          (t.past s.cycle a.sc 4).inMatrix))
      ∧ (∀ (a : EArgs) pas bar, let c := s.me.readC a.ca
        let d := s.me.readC (a.ca.val + 1)
        Ready (rc a.ca :: if a.ca = 31 then [] else [rc (a.ca.val + 1)]) [] 0 s → Allowed s c 0x0102 (mstoreShape c) →
        TileReach s c useWrite false (c.extent 0) (ext1 c 1) pas →
        (if a.ca = 31 ∨ d.tag = false then bar = none else
          Allowed s d 0x0183 (decide (d.sparse = 0) && (decide (d.fmt = 0x07) || decide (d.fmt = 0x08)) && decide (2 ≤ d.extent 0))
            ∧ bar.isSome = true ∧ barrierAt s d = bar) →
        let s1 := if bar.isSome then s.translated (elementAddr d [0]) useWrite else s
        exec (.mstore a) s = .next (s.retireIn ((s1.touchTile c (c.extent 0) (ext1 c 1) true).withMat
          (.mstore a.f2.val (a.q.val % 4) (decide (a.q.val / 4 = 1))) c a.ca (bar.map fun _ => d) pas bar.toList) (t.past s.cycle a.sc 4)))
      ∧ (∀ (a : EqArgs), let n := (s.me.readX a.cb).toNat
        n < 128 →
        (Ready [rx a.cb] [rv a.xc] 0 s → exec (.mrdrow a) s = .next (s.retireIn (s.withMat (.mrdrow a.f2.val n a.xc) Cap.null 0 none [] [])
          ({ s.me.issued none [rv a.xc] with vbusy := maskSet s.me.vbusy a.xc }.past s.cycle a.sc 4)))
        ∧ (Ready [rx a.cb, rv a.xc] [] 0 s → exec (.mwrrow a) s = .next (s.retireIn
          (s.withMat (.mwrrow a.f2.val n (s.me.readV a.xc)) Cap.null 0 none [] []) (t.past s.cycle a.sc 4)))))
  ∧ (∀ (a : EfArgs) (s : State), Ready [] [rx a.xc] 0 s →
      let k := s.myCore
      let running (f : MatKind → Bool) : Nat := if k.mq.any fun o => o.start.isSome && f o.kind then 1 else 0
      exec (.mstat a) s = .next (s.retire (((s.me.issued none [rx a.xc]).put s.cycle 0 a.xc (.x (BitVec.ofNat 64
        (k.mq.length + running MatKind.isMma * 2 ^ 9 + (if k.shadowNew then 2 ^ 10 else 0) + running MatKind.isLoad * 2 ^ 11
          + k.mflags.toNat * 2 ^ 16)))).past s.cycle a.sc 4)))

/-- R301 to R304, R316: CPY, CPYW, CPYB, CPYS and CPYM whose operands pass the checks enter their queue with their origin, scope and
auxiliary operand; a CPYM of no core completes at once. The model's own readings in it: log 28, log 91. -/
def Obligations.CopyIssue : Prop :=
  ∀ i a (kind : Vec → CopyKind) scaled aux (s : State) (p : Pairing) (pa : Nat), copyOf i = some (a, kind, scaled, aux) →
    let v := s.me.readV a.xc
    let src := s.me.readC a.cb
    let dst := s.me.readC a.ca
    let r := a.cb.val + 1
    let sealed_ := intoSealed s (castTargets s (kind v)) dst
    Ready ([rc a.ca, rc a.cb] ++ (if aux.isSome then [rc r] else []) ++ [rv a.xc]) [] 0 s → (s.copyQueue (coreOf s.cur) a.q).ops.length < 32 →
    elemOf v 4 11 % 8 < 6 → Allowed s src 0x0101 (anyShape src && (!scaled || scaledSource src)) → Allowed s dst 0x0102 (anyShape dst) →
    pairing scaled src dst = some p → pairShape p src dst (signedOf 32 (elemOf v 4 0)) = true →
    (sealed_ = true → sealedCopy s src dst (signedOf 32 (elemOf v 4 0)) = true) →
    elemCount dst < 2 ^ 40 → bytesOf dst (elemCount dst) < 2 ^ 40 →
    (∀ want shape, aux = some (want, shape) → Allowed s (s.me.readC r) want (shape (s.me.readC r))) →
    auxAt s (kind v) (s.me.readC r) = some pa →
    (∀ m, kind v = .cpym m → elemOf v 4 10 < 256 ∧ ∀ k < 8, m.getLsbD k = true → s.offline (8 * clusterOf s.cur + k) = false) →
    let c := s.copyQueue (coreOf s.cur) a.q
    let u := (s.me.issued none []).past s.cycle a.sc 4
    (kind v ≠ .cpym 0 → exec i s = .next (s.retireIn ((s.auxChecked (kind v) (s.me.readC r)).withCopy a.q { copyStub (kind v) with
        dst := dst, dstReg := a.ca, src := src, srcReg := a.cb, aux := if aux.isSome then s.me.readC r else Cap.null,
        auxReg := if aux.isSome then r else 0, auxPa := pa, origin := (List.range 8).map fun k => signedOf 32 (elemOf v 4 k),
        scope := Max.max 1 (elemOf v 4 11 % 8), blocks := sealed_ }) u))
    ∧ (kind v = .cpym 0 → ∃ c', exec i s = .next (s.retireIn (s.setQueue (coreOf s.cur) a.q c') u)
        ∧ c'.ops = c.ops ∧ c'.halted = c.halted ∧ c'.issued = c.issued + 1 ∧ (c.done = c.issued → c.late = [] → c'.done = c.issued + 1))

/-- R315 to R318, R322 to R326: CPF and CFILL enter their queue; CPRESUME starts a halted queue again, CPABORT discards its head, both do
nothing on a queue that is not halted; QFENCE passes once the queues of its mask have completed what they issued; CPSTAT reads the queue
and its fault record. The model's own readings in it: log 39, log 91. -/
def Obligations.QueueControl : Prop :=
  ∀ (a : EfArgs) (s : State),
    let core := coreOf s.cur
    let c := s.copyQueue core a.q
    let t := s.me.issued none []
    let u := t.past s.cycle a.sc 4
    (Ready [rc a.cb, rv a.xc] [] 0 s → c.ops.length < 32 → Allowed s (s.me.readC a.cb) 0x0101 (anyShape (s.me.readC a.cb)) →
      exec (.cpf a) s = .next (s.retireIn (s.withCopy a.q { copyStub .cpf with
        src := s.me.readC a.cb, srcReg := a.cb, origin := (List.range 8).map fun k => signedOf 32 (elemOf (s.me.readV a.xc) 4 k) }) u))
    ∧ (Ready [rc a.ca, rx a.xc] [] 0 s → c.ops.length < 32 →
      let d := s.me.readC a.ca
      Allowed s d 0x0102 (anyShape d && decide (d.sparse = 0) && decide (d.fmt ≠ 0x20)) → elemCount d < 2 ^ 40 →
      bytesOf d (elemCount d) < 2 ^ 40 →
      exec (.cfill a) s = .next (s.retireIn (s.withCopy a.q { copyStub (.cfill (s.me.readX a.xc)) with dst := d, dstReg := a.ca }) u))
    ∧ (Ready [] [] 0 s →
      (c.halted = false → exec (.cpresume a) s = .next (s.retire u) ∧ exec (.cpabort a) s = .next (s.retire u))
      ∧ (∀ o rest, c.halted = true → c.ops = o :: rest →
        exec (.cpresume a) s = .next (s.retireIn (s.setQueue core a.q { c with
          halted := false, record := clearValid c.record,
          ops := { o with started := false } :: rest }) u)
        ∧ (Settled s → ∃ c', exec (.cpabort a) s = .next (s.retireIn
            (let s1 := s.setQueue core a.q c'
             if a.ca = 1 ∧ o.kind = .cpyb then s1.barSub o.auxPa (bytesOf o.dst (elemCount o.dst) - o.sub) o.flags else s1) u)
          ∧ c'.halted = false ∧ c'.ops = rest ∧ c'.record = clearValid c.record ∧ c'.issued = c.issued
          ∧ (o.seq = c.done + 1 → c.late = [] → c'.done = c.done + 1)))
      ∧ (s.me.wait = .none → (∀ q < 5, a.cb.val / 2 ^ q % 2 = 1 → s.myCore.issuedOf q ≤ s.myCore.doneOf q) →
        exec (.qfence a) s = .next (s.retire u)))
    ∧ (Ready [rx a.xc] [rx a.xc] 0 s →
      let n := (s.me.readX a.xc).toNat % 16
      let v := if n = 0 then c.ops.length + (if c.halted then 2 ^ 15 else 0) else if n ≤ 8 then c.record.toNat / 2 ^ (64 * (n - 1)) % 2 ^ 64 else 0
      exec (.cpstat a) s = .next (s.retire (((s.me.issued none [rx a.xc]).put s.cycle 0 a.xc (.x (BitVec.ofNat 64 v))).past s.cycle a.sc 4)))

/-- R333: PUTR puts a value into the link buffer, or parks when it is full. R337 to R340: SKJOIN, SKLEAVE, SKBAR and SKQUERY act on a skein of
the cluster; a phase flips when every member has arrived. -/
def Obligations.LinksAndSkeins : Prop :=
  (∀ (a : RArgs) (s : State),
    let r := putSource a
    let w := (s.me.readX a.rs2).toNat
    let core := coreOf s.cur
    let l := s.link core (putDir a)
    Ready [r, rx a.rs2] [] 0 s → w < 2 ^ 9 → (r.cls = .v ∨ 16 ≤ w) →
    let s0 := if r.cls = .c then s.visitReg a.rs1 else s
    (l.length < 4 → exec (.putr a) s = .next (s.retireIn
      (s.setLink core (putDir a) (l ++ [{ ctx := w % 16, num := w / 16, val := s0.me.value r, ready := s.cycle + 4, go := false }]))
      ((s0.me.issued (syncOf a.sr r) []).past s.cycle a.sc 4)))
    ∧ (4 ≤ l.length → exec (.putr a) s = .next (s.setMe (s.me.parked .retry))))
  ∧ ∀ (a : RArgs) (s : State), Ready [rx a.rs1] [rx a.rd] 0 s →
    let id := (s.me.readX a.rs1).toNat
    let cl := clusterOf s.cur
    let k := s.skein cl id
    let me := s.cur % 128
    let mine (k : Skein) : Option Member := k.members.find? fun e => decide (e.id = me)
    let t := s.me.issued (syncOf a.sr (rx a.rs1)) [rx a.rd]
    let others := k.members.filter fun e => decide (e.id ≠ me)
    let number (k : Skein) : Word := BitVec.ofNat 64 k.members.length
    id < 64 →
    (mine k = none →
      let k' : Skein := { k with members := k.members ++ [{ id := me, arr := false, aph := false }] }
      exec (.skjoin a) s = .next (s.retireIn (s.setSkein cl id k') (t.gives s.cycle a.rd a.sc (number k')))
      ∧ exec (.skleave a) s = .next (s.retireIn (s.setSkein cl id k) (t.gives s.cycle a.rd a.sc (number k)))
      ∧ exec (.skbar a) s = .next (s.trapMe (illegalOf (encR 0x3C 8 a))))
    ∧ (∀ m, mine k = some m →
      let k' := ({ k with members := others } : Skein).tested
      exec (.skjoin a) s = .next (s.retireIn (s.setSkein cl id k) (t.gives s.cycle a.rd a.sc (number k)))
      ∧ exec (.skleave a) s = .next (s.retireIn (s.setSkein cl id k') (t.gives s.cycle a.rd a.sc (number k')))
      ∧ (m.arr = false →
        let here := k.setMember me true k.phase
        let done := decide (∀ e ∈ here.members, e.arr = true ∧ e.aph = k.phase)
        let s1 := s.l1Release (coreOf s.cur) s.myPid
        (done = true → exec (.skbar a) s = .next (s.retireIn
            ((s1.setSkein cl id (here.tested.setMember me false k.phase)).l1Acquire (coreOf s.cur))
            (t.gives s.cycle a.rd a.sc (if k.phase then 1 else 0))))
        ∧ (done = false → exec (.skbar a) s = .next ((s1.setSkein cl id here).setMe (s.me.parked .skein))))
      ∧ (m.arr = true → m.aph = k.phase → exec (.skbar a) s = .next (s.setMe (s.me.parked .skein)))
      ∧ (m.arr = true → m.aph ≠ k.phase → exec (.skbar a) s = .next (s.retireIn
          ((s.setSkein cl id (k.setMember me false m.aph)).l1Acquire (coreOf s.cur))
          (t.gives s.cycle a.rd a.sc (if m.aph then 1 else 0)))))
    ∧ exec (.skquery a) s = .next (s.retire (t.gives s.cycle a.rd a.sc (BitVec.ofNat 64 (k.members.length
        + (k.members.countP fun e => e.arr && (e.aph == k.phase)) * 2 ^ 8 + (if (mine k).isSome then 2 ^ 24 else 0)
        + (if (mine k).any (·.arr) then 2 ^ 25 else 0) + (if k.phase then 2 ^ 26 else 0) + k.count.toNat * 2 ^ 27))))

/-- R343 to R354: TLAUNCH whose method is found without conversions is accepted into a free record, stamps the outputs and returns a handle;
which free record is taken is not fixed. TWAIT of a complete launch returns its status and frees the record; of another it parks. The
model's own readings in it: log 4, log 45, log 47, log 48. -/
def Obligations.Launches : Prop :=
  (∀ (a : RArgs) (s s0 : State) (cs : List Nat) (cache : List Method) (m : Method), Settled s → swf Cluster.reset s.clusters = true →
    let w := s.me.readX a.rs2
    let dims := (s.me.readX a.rs1).toNat
    let n := w.toNat % 16
    let cl := clusterOf s.cur
    let ops := (List.range 8).map fun j => if j < n then s.me.readC (j + 1) else Cap.null
    let key := keyOf (kindsOf ops n) (dims / 2 ^ 48)
    Ready ([rx a.rs1, rx a.rs2] ++ launchRegs n ++ m.regs) [rx a.rd] 0 s → (a.sr = true → rx a.rs1 ∉ m.regs) → s.myPart.sweepActive = false →
    w.toNat / 2 ^ 32 = 0 → w.toNat / 2 ^ 5 % 2 ^ 11 = 0 → n ≤ 8 → targets s s.myPid cl (w.toNat / 2 ^ 16) = some cs → freeSlots s cl ≠ [] →
    lookup cl s.myPid key s (s.cluster cl).mcache = (s0, cache, some m) → m.conv = false →
    (∀ j < 4, s.me.pendingAfter (rc (j + 1)) s.cycle = false) →
    let l : Launch := {
      gen := 0, source := .task (if s.me.child then 16 * coreOf s.cur else s.cur), detach := w.getLsbD 4, method := m,
      ops := stampAll m ops, c31 := s.me.readC 31, xs := m.regs.map fun r => s.me.readX r.num, d0 := dims % 2 ^ 16,
      d1 := dims / 2 ^ 16 % 2 ^ 16, d2 := dims / 2 ^ 32 % 2 ^ 16, queues := cs.zipIdx, converts := [], doneN := 0, status := none,
      complete := false }
    let s1 := (s0.setCluster cl { s0.cluster cl with mcache := cache }).l1Release (coreOf s.cur) s.myPid
    ∃ slot ∈ freeSlots s cl, ∃ s2,
      let gen := sget 0 (s.cluster cl).gens slot
      s1.acceptLaunch cl l = (s2, slot)
      ∧ exec (.tlaunch a) s = .next (s.retireIn s2
          (((s.me.issued (syncOf a.sr (rx a.rs1)) [rx a.rd]).stamped m n).gives s.cycle a.rd a.sc (BitVec.ofNat 64 (gen * 2 ^ 8 + slot))))
      ∧ (l.d0 * l.d1 * l.d2 ≠ 0 → s2.launchAt cl slot = some { l with gen := gen }))
  ∧ ∀ (a : RArgs) (s : State) (l : Launch), Ready [rx a.rs1] [rx a.rd] 0 s →
    let h := (s.me.readX a.rs1).toNat
    let cl := clusterOf s.cur
    let slot := h % 32
    h < 2 ^ 24 → h / 2 ^ 5 % 8 = 0 → s.launchAt cl slot = some l → l.source = .task (if s.me.child then 16 * coreOf s.cur else s.cur) →
    l.detach = false → l.gen = h / 2 ^ 8 →
    (l.complete = true → exec (.twait a) s = .next (s.retireIn ((s.freeRecord cl slot).l1Acquire (coreOf s.cur))
      ((s.me.issued none [rx a.rd]).gives s.cycle a.rd a.sc ((l.status.map (·.2)).getD 0))))
    ∧ (l.complete = false → exec (.twait a) s = .next (s.setMe (s.me.parked (.launch cl slot l.gen a))))

/-- R359 to R370: KVSUB takes a free slot with its ascending page list or parks; KVUNSUB frees the slot, to the oldest that waits for one;
KVNEXT takes the oldest delivery of the strand's slots, says when all are drained, and else waits; KVREL gives a buffer back. The model's
own reading in it: log 28. -/
def Obligations.Subscriptions : Prop :=
  (∀ (a : RArgs) (s : State) (ids : List Nat) (es : List Elem),
    let w := (s.me.readX a.rs2).toNat
    let list := s.me.readC a.rs1
    let kp := s.me.readC (a.rs1.val + 1)
    let vp := s.me.readC (a.rs1.val + 2)
    let cl := clusterOf s.cur
    swf Cluster.reset s.clusters = true → a.rs1.val ≤ 29 → Ready [rc a.rs1, rc (a.rs1.val + 1), rc (a.rs1.val + 2), rx a.rs2] [rx a.rd] 0 s → s.myPart.sweepActive = false →
    w + list.extent 0 ≤ 2 ^ 16 → w < 2 ^ 16 → Allowed s list 0x0001 (listShape list) → Allowed s kp 0x0101 (poolShape kp) →
    Allowed s vp 0x0101 (poolShape vp && samePages kp vp) →
    4 * bufBytes (kp.extent 0) (kp.extent 1) ≤ (kvRegion s.myCore).2 * 2 ^ 16 →
    es.length = list.extent 0 → (∀ j, (es[j]?).map (fun e => (s.touching (es.take j) 4 false).load e.pa 4) = ids[j]?) →
    (∀ j e, es[j]? = some e → InBounds list [Int.ofNat j] ∧
      Reached (s.touching (es.take j) 4 false) useRead 4 (some list.fmt) list.objid (elementAddr list [Int.ofNat j]) e) →
    ids.Pairwise (fun x y => x < y) → (∀ v ∈ ids, v < kp.extent 2) →
    let s1 := s.touching es 4 false
    let t := s.me.issued (syncOf a.sr (rc a.rs1)) [rx a.rd]
    (∀ q, freeKv s cl = some q → exec (.kvsub a) s = .next (s.retireIn
      (s1.setCluster cl { s1.cluster cl with
        kvAge := (s.cluster cl).kvAge + 1
        kv := sset KvSlot.reset (s.cluster cl).kv q
          {
            state := .pending, owner := s.cur, ids := ids, obase := w, kpool := kp, vpool := vp, age := (s.cluster cl).kvAge,
            left := ids, queue := [], refs := [] } })
      (t.gives s.cycle a.rd a.sc (BitVec.ofNat 64 q))))
    ∧ (freeKv s cl = none → exec (.kvsub a) s = .next ((s1.setCluster cl { s1.cluster cl with
        kvWait := (s.cluster cl).kvWait ++ [{ strand := s.cur, args := a, ids := ids, obase := w, kpool := kp, vpool := vp }] }).setMe
        (s.me.parked .request))))
  ∧ (∀ (a : RArgs) (s : State),
    let x := (s.me.readX a.rs1).toNat
    let cl := clusterOf s.cur
    let u := (s.me.issued (syncOf a.sr (rx a.rs1)) []).past s.cycle a.sc 4
    let mine (q : Nat) : Prop := (s.kvSlot cl q).state ≠ .free ∧ (s.kvSlot cl q).owner = s.cur
    Ready [rx a.rs1] [] 0 s → swf Cluster.reset s.clusters = true → swf KvSlot.reset (s.cluster cl).kv = true →
    (x < 64 → mine x → (s.cluster cl).kvWait = [] → exec (.kvunsub a) s = .next (s.retireIn (s.setKv cl x KvSlot.reset) u))
    ∧ (∀ r rest, x < 64 → mine x → freeKv s cl = none → (s.cluster cl).kvWait = r :: rest → r.strand ≠ s.cur →
      (s.strand r.strand).dropX = 0 → (s.strand r.strand).dropV = 0 →
      let s1 := (s.setCluster cl { s.cluster cl with kvWait := rest }).subscribe cl x r
      exec (.kvunsub a) s = .next (s.retireIn ((s1.setStrand r.strand
        ((((s.strand r.strand).issued (syncOf r.args.sr (rc r.args.rs1)) [rx r.args.rd]).setX r.args.rd (BitVec.ofNat 64 x)).goOn s.cycle
          r.args.sc)).countFor r.strand) u))
    ∧ (64 ≤ x ∨ ¬mine x → exec (.kvunsub a) s = .next (s.trapMe (illegalOf (encR 0x3D 1 a))))
    ∧ (x.testBit 15 = true ∨ x / 2 ^ 16 % 2 ^ 8 ≠ 0 → exec (.kvrel a) s = .next (s.retire u))
    ∧ (x.testBit 15 = false → x / 2 ^ 16 % 2 ^ 8 = 0 → let q := x % 64
      let k := s.kvSlot cl q
      let b := x / 2 ^ 8 % 4
      (mine q → b ∈ k.refs → exec (.kvrel a) s = .next (s.retireIn (s.setKv cl q { k with refs := k.refs.erase b }) u))
      ∧ (¬(mine q ∧ b ∈ k.refs) → exec (.kvrel a) s = .next (s.trapMe (illegalOf (encR 0x3D 3 a))))))
  ∧ ∀ (a : RArgs) (s : State), Ready [] [rx a.rd] 0 s →
    let cl := clusterOf s.cur
    let own := ownKv s cl s.cur
    let t := s.me.issued none [rx a.rd]
    (∀ q d rest, q ∈ own → (s.kvSlot cl q).queue = d :: rest →
      (∀ p ∈ own, ∀ d', (s.kvSlot cl p).queue.head? = some d' → d.age < d'.age ∨ (d.age = d'.age ∧ q ≤ p)) →
      let k := s.kvSlot cl q
      exec (.kvnext a) s = .next (s.retireIn
        (s.setKv cl q { k with queue := rest, refs := if d.cause = 0 then k.refs ++ [d.buf] else k.refs })
        (t.gives s.cycle a.rd a.sc (BitVec.ofNat 64 ((k.obase + d.pos) % 2 ^ 16 * 2 ^ 48 + d.page % 2 ^ 20 * 2 ^ 24 + d.cause * 2 ^ 16
          + d.buf * 2 ^ 8 + q)))))
    ∧ ((∀ q ∈ own, (s.kvSlot cl q).queue = []) → (∀ q ∈ own, (s.kvSlot cl q).state = .drained) →
      exec (.kvnext a) s = .next (s.retire (t.gives s.cycle a.rd a.sc 0x8000)))
    ∧ ((∀ q ∈ own, (s.kvSlot cl q).queue = []) → (∃ q ∈ own, (s.kvSlot cl q).state ≠ .drained) →
      exec (.kvnext a) s = .next (s.setMe (s.me.parked .retry)))

/-- R372 to R376: MGALLOC takes the lowest free slot that fits; MGPUT combines the next partial and keeps one that comes early; MGGET divides
and stores once all have come, and parks before; MGFREE frees. Two partials combine with the weights that the difference of their maxima
gives. The model's own readings in it: log 6, log 13, log 28. -/
def Obligations.MergeBuffer : Prop :=
  (∀ (a : RArgs) (s : State),
    let x := (s.me.readX a.rs1).toNat
    let cl := clusterOf s.cur
    Ready [rx a.rs1] [rx a.rd] 0 s → 1 ≤ x % 2 ^ 16 → x % 2 ^ 16 ≤ 256 → x / 2 ^ 16 ≠ 0 → x < 2 ^ 32 →
    let d := x % 2 ^ 16
    let t := s.me.issued (syncOf a.sr (rx a.rs1)) [rx a.rd]
    (∀ n, n < 128 → (s.mergeSlot cl n).valid = false → (∀ k < n, (s.mergeSlot cl k).valid = true) →
      mergeUsed (s.cluster cl) + mergeBytes d ≤ 2 ^ 18 → exec (.mgalloc a) s = .next (s.retireIn
        (s.setMerge cl n { MergeSlot.reset with valid := true, dim := d, nord := x / 2 ^ 16, o := List.replicate d 0 })
        (t.gives s.cycle a.rd a.sc (BitVec.ofNat 64 n))))
    ∧ ((∀ k < 128, (s.mergeSlot cl k).valid = true) ∨ 2 ^ 18 < mergeUsed (s.cluster cl) + mergeBytes d →
      exec (.mgalloc a) s = .next (s.retire (t.gives s.cycle a.rd a.sc 0x8000000000000000))))
  ∧ (∀ (a : RArgs) (s : State) (es : List Elem),
    let w := (s.me.readX a.rs2).toNat
    let x := (s.me.readX a.rd).toNat
    let cl := clusterOf s.cur
    let c := s.me.readC a.rs1
    let slot := w % 128
    let ord := w / 2 ^ 16
    let k := s.mergeSlot cl slot
    let me := s.cur % 128
    swf Cluster.reset s.clusters = true → Ready [rc a.rs1, rx a.rs2, rx a.rd] [] 0 s → w = slot + ord * 2 ^ 16 → ord < 2 ^ 16 →
    k.valid = true → ord < k.nord → k.next ≤ ord → (ord < k.next + 16 → sget none k.win (ord % 16) = none) →
    (me ∈ k.senders ∨ k.senders.length ≠ 8) → Allowed s c 0x0001 (partialShape c) → RunReach s c useRead k.dim es →
    let s1 := s.touchAll es 4 false
    let p : Partial := { m := BitVec.ofNat 32 (x / 2 ^ 32), l := BitVec.ofNat 32 x, o := es.map fun e => BitVec.ofNat 32 (s1.load e.pa 4) }
    let senders := if me ∈ k.senders then k.senders else k.senders ++ [me]
    let u := (s.me.issued (syncOf a.sr (rc a.rs1)) []).past s.cycle a.sc 4
    (k.next < ord → ord < k.next + 16 → sget none k.win (k.next % 16) = none → (∀ r ∈ (s.cluster cl).mgWait, r.slot ≠ slot) → exec (.mgput a) s = .next (s.retireIn
      (s1.setMerge cl slot { k with senders := senders, win := sset none k.win (ord % 16) (some p) }) u))
    ∧ (ord = k.next → sget none (sset none k.win (ord % 16) none) ((ord + 1) % 16) = none → swf none k.win = true →
      (∀ r ∈ (s.cluster cl).mgWait, r.slot ≠ slot) → exec (.mgput a) s = .next (s.retireIn
        (s1.setMerge cl slot { (k.combine p) with senders := senders, next := ord + 1 }) u))
    ∧ (k.next + 16 ≤ ord → exec (.mgput a) s = .next ((s1.setCluster cl { s1.cluster cl with
        mgWait := (s.cluster cl).mgWait ++ [{
          strand := s.cur, args := a, get := false, slot := slot, ord := ord, m := p.m, l := p.l,
          objid := c.objid, places := es.map Elem.at_, fmt := 0x12 }] }).setMe (s.me.parked .request))))
  ∧ (∀ (a : RArgs) (s : State) (es : List Elem),
    let w := (s.me.readX a.rs2).toNat
    let cl := clusterOf s.cur
    let c := s.me.readC a.rs1
    let k := s.mergeSlot cl w
    swf Cluster.reset s.clusters = true → Ready [rc a.rs1, rx a.rs2] [rx a.rd] 0 s → w < 128 → k.valid = true → Allowed s c 0x0002 (quotientShape c) →
    RunReach s c useWrite k.dim es →
    let s1 := es.foldl (fun u e => u.touchPage e false) s
    let r (o : BitVec 32) : Flagged Nat :=
      rounded (if c.fmt = 0x11 then bf16 else fp32) .rne ((fp32.decode o.toNat).2 ||| (fp32.decode k.l.toNat).2)
        ((fp32.decode o.toNat).1.div (fp32.decode k.l.toNat).1)
    let t := s.me.issued (syncOf a.sr (rc a.rs1)) [rx a.rd]
    let stores := (es.zip k.o).map fun e => { at_ := e.1.at_, size := esize c.fmt, value := (r e.2).1, objid := c.objid }
    (k.next = k.nord → k.o.length = k.dim → exec (.mgget a) s = .next (s.storedIn (s1.writeParts s.cur (partsOf stores))
      ({ t.put s.cycle 0 a.rd (.x (BitVec.ofNat 64 (k.m.toNat * 2 ^ 32 + k.l.toNat))) with
          fflags := k.o.foldl (fun f o => f ||| (r o).2) (s.me.fflags ||| k.flags) }.past s.cycle a.sc 4)))
    ∧ (k.next ≠ k.nord → exec (.mgget a) s = .next ((s1.setCluster cl { s1.cluster cl with
        mgWait := (s.cluster cl).mgWait ++ [{
          strand := s.cur, args := a, get := true, slot := w, ord := 0, m := 0, l := 0, objid := c.objid,
          places := es.map Elem.at_, fmt := c.fmt }] }).setMe (s.me.parked .request))))
  ∧ (∀ (a : RArgs) (s : State),
    let w := (s.me.readX a.rs1).toNat
    let cl := clusterOf s.cur
    let u := (s.me.issued (syncOf a.sr (rx a.rs1)) []).past s.cycle a.sc 4
    Ready [rx a.rs1] [] 0 s → swf Cluster.reset s.clusters = true →
    (w < 128 → (s.mergeSlot cl w).valid = false → exec (.mgfree a) s = .next (s.retire u))
    ∧ (w < 128 → (s.mergeSlot cl w).valid = true → (∀ r ∈ (s.cluster cl).mgWait, r.slot ≠ w) →
      exec (.mgfree a) s = .next (s.retireIn (s.setMerge cl w MergeSlot.reset) u))
    ∧ (128 ≤ w → exec (.mgfree a) s = .next (s.trapMe (illegalOf (encR 0x3D 7 a)))))
  ∧ ∀ (k : MergeSlot) (p : Partial),
    let empty (m l : BitVec 32) : Prop := m = 0xFF800000 ∧ l &&& 0x7FFFFFFF = 0
    let num (x : BitVec 32) : Machine.Num := (fp32.decode x.toNat).1
    let top := (fp32.pick true k.m.toNat p.m.toNat).1
    let gap (x : BitVec 32) : Nat :=
      let d := (fp32.round ((num x).add (fp32.decode top).1.neg .rne).1 .rne false).1
      (fp32.round (fp32.decode d).1.exp.1 .rne false).1
    let two (x y : BitVec 32) : BitVec 32 :=
      let u := (num x).mul (fp32.decode (gap k.m)).1
      let v := (num y).mul (fp32.decode (gap p.m)).1
      BitVec.ofNat 32 (fp32.round (u.1.add v.1 .rne).1 .rne false).1
    (empty p.m p.l → k.combine p = k)
    ∧ (¬empty p.m p.l → empty k.m k.l → k.combine p = { k with m := p.m, l := p.l, o := p.o })
    ∧ (¬empty p.m p.l → ¬empty k.m k.l → ∃ f, k.combine p = { k with
        m := BitVec.ofNat 32 top, l := two k.l p.l, o := (k.o.zip p.o).map fun e => two e.1 e.2, flags := k.flags ||| f })

/-- R391 to R396: L2PIN reserves ways in a free slot, or returns why not; L2UNPIN ends a reservation; L2HINT, L2FLUSH and L2INV act on every
line of the range of their capability, with their strand parked until they are done. The model's own reading in it: log 55. -/
def Obligations.CacheControl : Prop :=
  (∀ (a : RArgs) (s : State),
    let c := s.me.readC a.rs1
    let w := (s.me.readX a.rs2).toNat
    let n := dieOf s.cur
    let d := s.die n
    let key := 8 * s.myPid + w % 8
    let res := w / 2 ^ 8
    let t := s.me.issued (syncOf a.sr (rc a.rs1)) [rx a.rd]
    let slot : Retention := { valid := true, lo := (lineRange c).1, hi := (lineRange c).2, res := res, hit := 0, miss := 0, ovf := 0 }
    let full := wayCount s.myPart.wmask < d.reserved (some s.myPid) + res + 1 ∨ 8 < d.reserved none + res
    (s.pidOf s.cur).isSome = true → Ready [rc a.rs1, rx a.rs2] [rx a.rd] 0 s → w / 2 ^ 3 % 32 = 0 → res ≤ 8 → Allowed s c 0x0101 true →
    ((sget Retention.reset d.ret key).valid = true → exec (.l2pin a) s = .next (s.retire (t.gives s.cycle a.rd a.sc 1)))
    ∧ ((sget Retention.reset d.ret key).valid = false → full → exec (.l2pin a) s = .next (s.retire (t.gives s.cycle a.rd a.sc 2)))
    ∧ ((sget Retention.reset d.ret key).valid = false → ¬full → exec (.l2pin a) s = .next (s.retireIn
        (s.setDie n { d with ret := sset Retention.reset d.ret key slot })
        (t.gives s.cycle a.rd a.sc 0))))
  ∧ (∀ (a : RArgs) (s : State),
    let x := (s.me.readX a.rs1).toNat
    let n := dieOf s.cur
    let d := s.die n
    let key := 8 * s.myPid + x
    let old := sget Retention.reset d.ret key
    let t := s.me.issued (syncOf a.sr (rx a.rs1)) [rx a.rd]
    Ready [rx a.rs1] [rx a.rd] 0 s → x < 8 →
    (old.valid = false → exec (.l2unpin a) s = .next (s.retire (t.gives s.cycle a.rd a.sc 1)))
    ∧ (old.valid = true → exec (.l2unpin a) s = .next (s.retireIn
        (s.setDie n { d with
          ret := sset Retention.reset d.ret key { old with valid := false, lo := 0, hi := 0, res := 0 }
          l2 := d.l2.map fun e => (e.1, e.2.map fun l =>
            if l.pid = s.myPid ∧ l.slot = some x then { l with slot := none, prot := false } else l) })
        (t.gives s.cycle a.rd a.sc 0))))
  ∧ (∀ (a : RArgs) (s : State),
    let c := s.me.readC a.rs1
    let x := (s.me.readX a.rs2).toNat
    let acted (which : Fin 3) (f : LineAct) : State :=
      (spanLines c (decide (which ≠ 0)) f s).setMe (s.me.parked (.slices which a))
    (Ready [rc a.rs1, rx a.rs2] [] 0 s → x ≤ 1 → Allowed s c 0x0001 true →
      exec (.l2hint a) s = .next (acted 0 (lineMove (decide (x = 1)))))
    ∧ (Ready [rc a.rs1] [] 0 s →
      (Allowed s c 0x0001 true → exec (.l2flush a) s = .next (acted 1 lineClean))
      ∧ (Allowed s c 0x0003 true → exec (.l2inv a) s = .next (acted 2 lineDrop)))
    ∧ ∀ which, s.me.status = .parked → s.me.wait = .slices which a → slicesTick s.cur s = (s.setMe
      { s.me.issued (syncOf a.sr (rc a.rs1)) [] with
        pc := s.me.pc + 4, nextIssue := s.cycle + gapOf a.sc, status := .running, wait := .none }).countFor s.cur)
  ∧ ∀ (c : Cap) (back : Bool) (f : LineAct) (s : State) (leaf : Leaf) (pa n lo hi : Nat), (s.pidOf s.cur).isSome = true → lineRange c = (lo, hi) → lo < hi →
    lo / 2 ^ 16 = (hi - 1) / 2 ^ 16 → translate s (s.pidOf s.cur) (lo / 2 ^ 16 * 2 ^ 16) useRead = .ok (leaf, pa) → s.place pa = .gddr n →
    let first := lineOf (pa + lo % 2 ^ 16)
    let last := first + (hi - lo) / 128
    let s1 := s.touchLeaf (.core (coreOf s.cur)) s.myPid (lo / 2 ^ 16 * 2 ^ 16) leaf false
    spanLines c back f s = s1.setDie n ((if back then (s1.die n).backLines s.myPid first last else s1.die n).onLines s.myPid first last f)

/-- R436 to R450: OALLOC writes the entry of a free object and returns its root; OFREE advances the generation, or quarantines the entry
at 255, once nothing in flight names the object, and for a paired partition tells the peer card and waits for it; VERSTEP advances a
version counter, and raises INTEGRITY at its end; SWEEPGO starts or queues a sweep and SWEEPSTAT, with or without SYS, reads the sweep
numbers. The model's own readings in it: log 42, log 43, log 52. -/
def Obligations.Lifetimes : Prop :=
  (∀ (a : RArgs) (s : State), Ready [] [rx a.rd] 0 s → let p := s.myPart
    exec (.sweepstat a) s = .next (s.retire ((s.me.issued none [rx a.rd]).gives s.cycle a.rd a.sc (BitVec.ofNat 64
      ((if p.sweepActive then 2 ^ 63 else 0) + (if p.sweepPend then 2 ^ 62 else 0) + p.sweepNext % 2 ^ 31 * 2 ^ 31 + p.sweepDone % 2 ^ 31)))))
  ∧ ∀ (a : RArgs) (s : State), s.me.sys = true →
    let p := s.myPart
    let c := s.me.readC a.rs1
    let i := c.objid
    let sync := syncOf a.sr (rc a.rs1)
    let u := (s.me.issued sync []).past s.cycle a.sc 4
    (∀ lo hi : Int, let w := (s.me.readX a.rs2).toNat
      let k := w % 2 ^ 20
      Ready [rc a.rs1, rx a.rs2] [rc a.rd] 0 s → w.testBit 23 = false → w < 2 ^ 52 → k ≠ 0xFFFFF → c.otype = 0 → c.codesOk = true →
      shaped c.view = true → c.zeroAbove = true → 2 ≤ c.reach →
      (w.testBit 20 = true ∨ w.testBit 21 = true → ∀ r, span c = some r → r.1 % 256 = 0 ∧ r.2 % 256 = 0) → k < objCount p → objState s p k = 2 →
      let word2 := objGen s p k + w / 2 ^ 20 % 8 * 2 ^ 10 + w / 2 ^ 24 % 2 ^ 16 * 2 ^ 16 + w / 2 ^ 40 * 2 ^ 32
      let entry (s0 : State) (base len : Nat) : State :=
        (((s0.store (objAt p k) 8 base).store (objAt p k + 8) 8 len).store (objAt p k + 16) 8 word2).store (objAt p k + 24) 8 0
      let t := ((s.me.issued sync [rc a.rd]).put s.cycle 0 a.rd (.c { (c.setField 64 20 k).setField 56 8 (objGen s p k) with tag := true })).past
          s.cycle a.sc 4
      (span c = some (lo, hi) →
        exec (.oalloc a) s = .next (s.retireIn (entry s (lo % 2 ^ 55).toNat ((hi - lo) % 2 ^ 55).toNat) t))
      ∧ (span c = none → ∃ base < 2 ^ 55, exec (.oalloc a) s = .next (s.retireIn (entry { s with freeCtr := s.freeCtr + 1 } base 0) t)))
    ∧ (LiveReach s a →
      (inFlight s s.myPid i = false → p.paired = none → exec (.ofree a) s = .next (s.objectFreed a))
      ∧ (inFlight s s.myPid i = false → p.paired.isSome = true → s.posted (s.pidOf s.cur) = false →
        let s1 := s.objectStepped i
        exec (.ofree a) s = .next (({ s1 with
          outbox := s1.outbox ++ [.peerOfree s.myPid i]
          unacked := sset 0 s1.unacked s.cur (sget 0 s1.unacked s.cur + 1) } : State).setMe (s.me.parked (.ofreePeer a (freeSpan s p i)))))
      ∧ (inFlight s s.myPid i = true ∨ (p.paired.isSome = true ∧ s.posted (s.pidOf s.cur) = true) →
        exec (.ofree a) s = .next (s.setMe (s.me.parked .retry)))
      ∧ (objInteg s p i = false → objEnc s p i = false → exec (.verstep a) s = .next (s.trapMe
          { cause := .capPerm, tval := 0, tcap := BitVec.ofNat 64 a.rs1 }))
      ∧ (objInteg s p i = true ∨ objEnc s p i = true → versionSlot s p i = none → exec (.verstep a) s = .next (s.trapMe
          { cause := .integrity, tval := BitVec.ofNat 64 (objVslot s p i), tcap := BitVec.ofNat 64 a.rs1 }))
      ∧ (∀ n, objInteg s p i = true ∨ objEnc s p i = true → versionSlot s p i = some n → s.version n ≠ BitVec.allOnes 48 →
        let s1 := s.l1Release (coreOf s.cur) s.myPid
        exec (.verstep a) s = .next (s.retireIn { s1 with versions := sset 0 s.versions n (s.version n + 1) } u))
      ∧ (∀ n, objInteg s p i = true ∨ objEnc s p i = true → versionSlot s p i = some n → s.version n = BitVec.allOnes 48 →
        exec (.verstep a) s = .next (s.trapMe
          {
            cause := .integrity, tval := BitVec.ofNat 64 (objVslot s p i), tcap := BitVec.ofNat 64 a.rs1 })))
    ∧ (Ready [] [rx a.rd] 0 s →
      let t := s.me.issued none [rx a.rd]
      ∀ pid, s.pidOf s.cur = some pid → exec (.sweepgo a) s = .next (s.retireIn
        (s.setPart pid (if p.sweepActive then { p with sweepPend := true }
          else { p with sweepActive := true, sweepNext := (p.sweepNext + 1) % 2 ^ 31, sweepHere := false, sweepThere := false }))
        (t.gives s.cycle a.rd a.sc (BitVec.ofNat 64 p.sweepNext))))

/-- R468 to R477: LNCPY and LNRED of a paired partition enter its link queue, LNRED with a tag not in use, and are held while the queue is
full; LNFENCE waits for what was accepted; LNSTAT reads the queue, and resumes or aborts a halted one. The model's own reading in it: log
28. -/
def Obligations.LinkIssue : Prop :=
  (∀ (a : RArgs) (s : State) (pa : Nat) (red : Bool),
    let w := (s.me.readX a.rs2).toNat
    let aux := w % 4
    let r := a.rs1.val + 1
    let src := s.me.readC a.rs1
    let dst := s.me.readC a.rd
    let x := s.me.readC r
    let val := BitVec.ofNat 32 (w / 2 ^ 32)
    let n := dieOf s.cur
    let q := s.lq n s.myPid
    let i : Instr := if red then .lnred a else .lncpy a
    (s.pidOf s.cur).isSome = true → s.myPart.paired.isSome = true → s.myPart.sweepActive = false →
    Ready ([rc a.rs1, rc a.rd, rx a.rs2] ++ if aux = 0 then [] else [rc r]) [] 0 s → w / 2 ^ 2 % 2 ^ 30 = 0 → aux ≠ 3 →
    (aux ≠ 0 → a.rs1 ≠ 31) → Allowed s src 0x0101 (anyShape src) →
    Allowed s dst 0x0102 (anyShape dst && if red then lnredPair src dst else lncpyPair src dst) →
    elemCount dst < 2 ^ 40 → bytesOf dst (elemCount dst) < 2 ^ 40 →
    (aux = 0 → pa = 0) → (aux = 1 → Allowed s x 0x0102 (wordShape x) ∧ auxAt s (.cpyw 0) x = some pa) →
    (aux = 2 → Allowed s x 0x0183 (wordShape x && decide (2 ≤ x.extent 0)) ∧ auxAt s .cpyb x = some pa) →
    let op : LinkOp := {
      seq := q.issued + 1, red := red, val := val, aux := aux, strand := s.cur, dst := dst, dstReg := a.rd, src := src, srcReg := a.rs1,
      auxCap := if aux = 0 then Cap.null else x, auxReg := r, auxPa := pa, started := false, prefixN := 0, sub := 0, flags := 0,
      sent := false, own := [], before := [], met := false, stop := none }
    let s1 := (s.auxChecked (if aux = 2 then .cpyb else .cpy) x).setLq n s.myPid { q with ops := q.ops ++ [op], issued := q.issued + 1 }
    let u := (s.me.issued (syncOf a.sr (rc a.rs1)) []).past s.cycle a.sc 4
    (q.ops.length < 32 → red = false → exec i s = .next (s.retireIn s1 u))
    ∧ (q.ops.length < 32 → red = true → val ∉ s.myPart.liveTags → s.myPart.liveTags.length < 16 → exec i s = .next (s.retireIn
        (s1.setPart s.myPid { s.myPart with liveTags := s.myPart.liveTags ++ [val] }) u))
    ∧ (32 ≤ q.ops.length ∨ (red = true ∧ (val ∈ s.myPart.liveTags ∨ 16 ≤ s.myPart.liveTags.length)) →
      exec i s = .next { s with stalled := true }))
  ∧ ∀ (a : RArgs) (s : State),
    let n := dieOf s.cur
    let q := s.lq n s.myPid
    (Ready [] [] 0 s → s.me.wait = .none →
      (q.issued ≤ q.done → exec (.lnfence a) s = .next (s.retireIn (s.l1Acquire (coreOf s.cur)) ((s.me.issued none []).past s.cycle a.sc 4)))
      ∧ (q.done < q.issued → exec (.lnfence a) s = .next (s.setMe (s.me.parked (.fence [(5, q.issued)])))))
    ∧ (Ready [rx a.rs1] [rx a.rd] 0 s → (s.pidOf s.cur).isSome = true →
      let x := (s.me.readX a.rs1).toNat
      let sel := x % 16
      let t := s.me.issued (syncOf a.sr (rx a.rs1)) [rx a.rd]
      let status (q : LinkQueue) : Word := BitVec.ofNat 64 (
        if sel = 0 then q.ops.length + (if s.myPart.paired.isSome then 2 ^ 13 else 0) + (if s.seam = .up then 2 ^ 14 else 0)
          + (if q.halted then 2 ^ 15 else 0)
        else if sel ≤ 8 then q.record.toNat / 2 ^ (64 * (sel - 1)) % 2 ^ 64
        else if sel = 9 then q.issued % 2 ^ 32 * 2 ^ 32 + q.done % 2 ^ 32
        else 0)
      (x < 16 ∨ (x < 64 ∧ q.halted = false) → exec (.lnstat a) s = .next (s.retire (t.gives s.cycle a.rd a.sc (status q))))
      ∧ (∀ o rest, x / 16 = 1 → q.halted = true → q.ops = o :: rest →
        let q' : LinkQueue := { q with halted := false, record := clearValid q.record, ops := { o with started := false } :: rest }
        exec (.lnstat a) s = .next (s.retireIn (s.setLq n s.myPid q') (t.gives s.cycle a.rd a.sc (status q'))))
      ∧ (∀ o rest, x / 16 = 2 → q.halted = true → q.ops = o :: rest → o.red = false →
        let q' : LinkQueue := { q with halted := false, record := clearValid q.record, ops := rest, done := o.seq }
        exec (.lnstat a) s = .next (s.retireIn (s.setLq n s.myPid q') (t.gives s.cycle a.rd a.sc (status q')))))

/-- R5, R444, R452 to R454: what the power-on reset, the firmware download, creating, changing and destroying a partition, extending a
measurement, an evidence request and a key import do. The model's own readings in it: log 5, log 57, log 58, log 59, log 60, log 61, log
81. -/
def Obligations.ManagerEvents : Prop :=
  ∀ s : State,
    exec .powerOnReset s = .next { State.reset with
      epoch := Config.epochAtPowerOn (s.powerOns + 1), powerOns := s.powerOns + 1, dieGiB := s.dieGiB, freeCtr := s.freeCtr, agenda := s.agenda }
    ∧ (∀ d, s.firmware = false →
      exec (.firmwareDownload d) s = .next (if Config.firmwareGenuine d = true
        then { s with firmware := true, m0 := extendMeas s.m0 d } else { s with outbox := s.outbox ++ [.firmwareRefused] }))
    ∧ (swf Partition.reset s.parts = true → swf Core.reset s.cores = true → swf Cluster.reset s.clusters = true → ∀ d : Descriptor, let pid := d.partid.val
      (s.firmware = true → (s.part pid).present = false → descOk s d = true →
        ∃ t, exec (.partitionCreate d) s = .next t ∧ t.epoch = s.epoch + 1 ∧ t.m1 = extendMeas s.m1 (descDigest d)
          ∧ t.part pid = { Partition.reset with
            present := true, desc := d, wmask := d.wmask, otbase := d.otbase &&& 0xF800FFFFFFFFFFE0, asleep := true }
          ∧ (∀ c < 32, d.clusters.getLsbD c = true → t.pidOfCluster c = some pid
            ∧ (∀ n, clusterOf n = c → t.strand n = Strand.reset)
            ∧ ∀ k < 8, (t.core (8 * c + k)).admitMask = if t.offline (8 * c + k) then 0 else 1)
          ∧ (∀ k ∈ d.regions, sget none (t.die (k / 128)).regions (k % 128) = some { pid := pid, enc := d.encRegions.contains k })
          ∧ (Memory.wf s.mem → ∀ i < objCount (t.part pid), ownEntry t pid i = true →
            (∀ c ∈ t.coreMap pid, ∀ k < 16, ∀ sel < 2, i ≠ frameObj t pid (16 * c + k) sel) →
            objState t (t.part pid) i = 2 ∧ objGen t (t.part pid) i = 0)
          ∧ ∀ v, d.vbase.toNat ≤ v → v < d.vbase.toNat + d.vcount.toNat → t.version v = 0)
      ∧ ((s.part pid).present = true →
        (swf Die.reset s.dies = true → (∀ n, swf none (s.die n).regions = true) →
          ∃ t, exec (.partitionChange d true) s = .next t ∧ t.epoch = s.epoch + 1 ∧ t.part pid = Partition.reset ∧ t.regionsOf pid = []
          ∧ ∀ c < 32, s.pidOfCluster c = some pid → ∀ n, clusterOf n = c → t.strand n = Strand.reset)
        ∧ (descOk s d = true → ∃ t, exec (.partitionChange d false) s = .next t
          ∧ t.epoch = (if samePlace (s.part pid).desc d = true ∧ (s.part pid).wmask = d.wmask then s.epoch else s.epoch + 1)
          ∧ t.part pid = { s.part pid with desc := d, wmask := d.wmask }
          ∧ (∀ c < 32, d.clusters.getLsbD c = false → s.pidOfCluster c = some pid → ∀ n, clusterOf n = c → t.strand n = Strand.reset)
          ∧ ∀ k ∈ d.regions, sget none (t.die (k / 128)).regions (k % 128) = some { pid := pid, enc := d.encRegions.contains k })))
    ∧ ∀ pid : Fin 16, let p := s.part pid
      (p.present = true →
        (∀ (k : Fin 4) d, exec (.measurementExtend pid k d) s = .next (s.setPart pid { p with
          meas := p.meas.set k (extendMeas (p.meas.getD k 0) d) }))
        ∧ (swf Partition.reset s.parts = true → ∀ nonce,
          let body := (s.setPart pid { p with nonce := nonce }).evidenceBody pid
          let sig := Config.evidenceSignature (Config.sha3_512 body)
          ∃ t, exec (.evidenceRequest pid nonce) s = .next t ∧ t.outbox = s.outbox ++ [.evidence pid body sig]
            ∧ t.part pid = { p with nonce := nonce, evid := body ++ leBytes 4627 sig.toNat }
            ∧ { t with parts := s.parts, outbox := s.outbox } = s)
        ∧ ∀ req, exec (.keyImport pid s.epoch req) s = .next (match Config.unwrapKeys s.powerOns req with
          | some (k, m) => { s.setPart pid { p with dataKey := k, macKey := m, keyImp := sset 0 p.keyImp 0 0 } with outbox := s.outbox ++ [.keyStatus pid 0] }
          | none => { s.setPart pid { p with keyImp := sset 0 p.keyImp 0 2 } with outbox := s.outbox ++ [.keyStatus pid 2] }))
      ∧ ∀ epoch req, epoch ≠ s.epoch → exec (.keyImport pid epoch req) s = .next
          { s.setPart pid { p with keyImp := sset 0 p.keyImp 0 1 } with outbox := s.outbox ++ [.keyStatus pid 1] }

/-- R221, R447, R448, R453, R480: a swapped-out partition is saved and its contexts are free, and a swap in gives every strand back; power
gating and the migration commands move a partition between its run states, the state of another partition of this card loaded among them;
a context that a handler restarts goes on. The model's own readings in it: log 50, log 62, log 65, log 83, log 101. -/
def Obligations.SwapEvents : Prop :=
  ∀ (s : State) (pid : Fin 16), swf Partition.reset s.parts = true → let p := s.part pid
    (p.present = true → p.run = .running →
      (∃ t, exec (.partitionSwapOut pid) s = .next t ∧ (t.part pid).run = .descheduled ∧ (t.part pid).saved.isSome = true
        ∧ (t.part pid).desc = p.desc ∧ t.epoch = s.epoch
        ∧ ∀ n, s.pidOf n = some pid.val → n < 4096 → t.strand n = Strand.reset)
      ∧ (∃ t, exec (.powerGating pid true) s = .next t ∧ (t.part pid).run = .gated ∧ t.epoch = s.epoch)
      ∧ (p.paired = none → ∃ t, exec (.migcmdStop pid true) s = .next t ∧ (t.part pid).run = .halted ∧ (t.part pid).migstat = 2))
    ∧ (∀ v, p.run = .descheduled → p.saved = some v → (∀ c < 32, p.desc.clusters.getLsbD c = true → s.pidOfCluster c = none) →
      p.present = true → swf Strand.reset v.strands = true → swf Cluster.reset s.clusters = true →
      ∃ t, exec (.partitionSwapIn pid) s = .next t ∧ (t.part pid).run = .running ∧ (t.part pid).saved = none
        ∧ ∀ n < 4096, p.desc.clusters.getLsbD (clusterOf n) = true → n ≠ p.pmon.toNat % 2 ^ 12 →
          t.strand n = if t.offline (coreOf n) then Strand.reset else sget Strand.reset v.strands n)
    ∧ (p.run = .gated → exec (.powerGating pid false) s = .next (s.setPart pid { p with run := .running }))
    ∧ (p.present = true → p.paired.isSome = true → exec (.migcmdStop pid true) s = .next (s.setPart pid { p with migstat := 3 })
      ∧ (p.run ≠ .terminated → ∀ l, exec (.migcmdRestore pid true l) s = .next (s.setPart pid { p with migstat := 3 })))
    ∧ (p.run = .halted →
      (∃ t, exec (.migcmdSave pid true) s = .next t ∧ t.part pid = { p with saved := some (s.image pid), migstat := 2 }
        ∧ { t with parts := s.parts, dies := s.dies } = s)
      ∧ ∃ t, exec (.migcmdResume pid true) s = .next t ∧ t.part pid = { p with run := .running, saved := none, migstat := 2 }
        ∧ (∀ d < 2, (t.die d).shadow ≠ some pid.val) ∧ { t with parts := s.parts, dies := s.dies } = s)
    ∧ (p.present = true → p.run ≠ .terminated → ∀ q,
      exec (.migcmdRestore pid true { sameGeometry := false, source := q }) s = .next (s.setPart pid { p with migstat := 3 }))
    ∧ (p.run = .terminated → ∀ l, exec (.migcmdRestore pid true l) s = .next s)
    ∧ (∀ v, p.onDies = true → p.run ≠ .terminated → p.present = true → p.paired = none → p.saved = some v →
      ∃ t, exec (.migcmdRestore pid true { sameGeometry := true, source := none }) s = .next t
        ∧ (t.part pid).run = .halted ∧ (t.part pid).saved = none ∧ (t.part pid).migstat = 2)
    ∧ (∀ (q : Fin 16) v, p.onDies = true → p.run ≠ .terminated → p.present = true → p.paired = none → (s.part q).run = .halted → (s.part q).saved = some v →
      ∃ t, exec (.migcmdRestore pid true { sameGeometry := true, source := some q }) s = .next t
        ∧ (t.part pid).run = .halted ∧ (t.part pid).migstat = 2)
    ∧ ∀ n, s.pidOf n = some pid.val → p.run = .running → (s.strand n).status = .stopped →
      exec (.contextRestart n) s = .next (s.setStrand n { s.strand n with
        status := .running, wait := .none, nextIssue := Max.max (s.strand n).nextIssue (s.cycle + 1) })

/-- R422, R446, R458, R463 to R467, R479, R485: what a host read or write through the BAR of a partition, a CXL request, the training of
the host link and a write of each register of the administrative window do, and what a read of its registers gives. The model's own
readings in it: log 64, log 82. -/
def Obligations.HostEvents : Prop :=
  ∀ s : State,
    (∀ (b : BarPlace) k pa (size : Fin 4) v pid, (s.part b.pid).present = true → (s.regionsOf b.pid)[b.offset / 2 ^ 30]? = some k →
      pa = s.regionBase k + b.offset % 2 ^ 30 → s.homeOf pa = some pid → pa % 2 ^ size.val = 0 →
      exec (.hostWrite b size v) s = .next
        ((s.l2Request pid none pa (byteMask pa (2 ^ size.val)) false none).store pa (2 ^ size.val) (v.toNat % 2 ^ (8 * 2 ^ size.val)))
      ∧ exec (.hostRead (.memory b) size) s = .next
        { s.l2Request pid none pa 0 false none with outbox := s.outbox ++ [.hostData (BitVec.ofNat 64 (s.load pa (2 ^ size.val)))] })
    ∧ (∀ (b : BarPlace) (size : Fin 4) v, (s.regionsOf b.pid)[b.offset / 2 ^ 30]? = none → exec (.hostWrite b size v) s = .next s)
    ∧ (∀ offset v pa, s.hdmNext = none → hdmAddress s offset = some pa →
      (∀ pid, s.homeOf pa = some pid → pa % 8 = 0 →
        exec (.cxlMemRequest offset true v) s = .next
          { (s.l2Request pid none pa (byteMask pa 8) false none).store pa 8 v.toNat with outbox := s.outbox ++ [.cxl (some 0)] }
        ∧ exec (.cxlMemRequest offset false v) s = .next
          { s.l2Request pid none pa 0 false none with outbox := s.outbox ++ [.cxl (some (BitVec.ofNat 64 (s.load pa 8)))] }))
    ∧ (∀ offset w v, s.hdmNext = none → hdmAddress s offset = none →
      exec (.cxlMemRequest offset w v) s = .next { s with outbox := s.outbox ++ [.cxl none] })
    ∧ (∀ width rate cxl, exec (.hostLinkTrain width rate cxl) s = .next { s with hostLink := some (width, rate, cxl) })
    ∧ (∀ v, exec (.hdmpartWrite true v) s = .next { s with hdmNext := some (v.setWidth 8 &&& 0x1F) }
      ∧ exec (.hdmpartWrite false v) s = .next s)
    ∧ (∀ v, s.hdmNext = some v → exec .hdmpartApply s = .next { s with hdmpart := v, hdmNext := none })
    ∧ ∀ (pid : Fin 16) (v : Word), let p := s.part pid
      p.present = true →
      (p.mbctl.getLsbD 0 = false ∨ p.mbtail = p.mbhead →
        exec (.mbctlWrite pid v) s = .next (s.setPart pid { p with mbctl := v &&& 0x0000FFFFFFFFFF07 }))
      ∧ (p.mbctl.getLsbD 0 = true → p.mbtail ≠ p.mbhead → exec (.mbctlWrite pid v) s = .next s)
      ∧ (let t : BitVec 16 := v.setWidth 16
        let n := 2 ^ Min.min 12 (p.mbctl.toNat / 2 ^ 8 % 16)
        ((t - p.mbhead).toNat ≤ n → exec (.mbtailWrite pid v) s = .next (s.setPart pid { p with mbtail := t }))
        ∧ (n < (t - p.mbhead).toNat → exec (.mbtailWrite pid v) s = .next (s.setPart pid { p with errlog := p.errlog + 1 })))
      ∧ (v.getLsbD 0 = true → exec (.intreq pid v) s = .next (s.interrupt pid 0x10))
      ∧ (v.getLsbD 0 = false → exec (.intreq pid v) s = .next s)
      ∧ exec (.pairctlWrite pid true v) s = .next (s.setPart pid { p with pairctl := v.setWidth 8 &&& 0x1F })
      ∧ exec (.pairctlWrite pid false v) s = .next s
      ∧ (p.pairctl.getLsbD 4 = true → s.seam = .up → p.paired = none →
        exec (.pairing pid (some pid)) s = .next { s.setPart pid { p with paired := some (p.pairctl.toNat % 16) } with epoch := s.epoch + 1 })
      ∧ (∀ (k : Fin 32) (m : Byte), p.desc.clusters.getLsbD k = true →
        exec (.coreoffWrite pid true k m) s = .next (s.setCluster k { s.cluster k with coreoffNew := m }))
      ∧ exec (.dirtyctlWrite pid true v) s = .next (s.setPart pid { p with
          dirtyEn := v.getLsbD 0, dirty := if v.getLsbD 0 = true ∧ p.dirtyEn = false then [] else p.dirty })
      ∧ (∀ pf,
        let reads (o : Nat) (w : Word) : Prop :=
          exec (.hostRead (.window pid pf o) 3) s = .next { s with outbox := s.outbox ++ [.hostData w] }
        let only (w : Word) : Word := if pf then w else 0
        reads 0x0000 (BitVec.ofNat 64 (s.cardNo + (if s.seam = .up then 2 else 0) + (if p.paired.isSome then 4 else 0)
          + p.paired.getD 0 % 16 * 16))
        ∧ reads 0x0008 p.mbctl ∧ reads 0x0010 (p.mbtail.setWidth 64) ∧ reads 0x0018 (p.mbhead.setWidth 64) ∧ reads 0x0020 0
        ∧ reads 0x0028 (only (p.pairctl.setWidth 64)) ∧ reads 0x0108 (only (p.dirtyIdx.setWidth 64)) ∧ reads 0x0118 0
        ∧ reads 0x0120 (only (BitVec.ofNat 64 p.migstat)) ∧ ∀ k < 4, reads (0x3C00 + 8 * k) (sget 0 p.ev k))
      ∧ (∃ w : Word, (∀ k < 64, w.getLsbD k = sget false p.dirty (64 * p.dirtyIdx.toNat + k))
        ∧ exec (.dirtydataRead pid true) s = .next { s.setPart pid { p with
            dirty := sclear (64 * p.dirtyIdx.toNat) (64 * p.dirtyIdx.toNat + 64) p.dirty } with outbox := s.outbox ++ [.dirtyWord pid w] })
      ∧ exec (.dirtydataRead pid false) s = .next { s with outbox := s.outbox ++ [.dirtyWord pid 0] }
      ∧ exec (.adminRegWrite pid true 0x0108 v) s = .next (s.setPart pid { p with dirtyIdx := v.setWidth 32 })
      ∧ (∀ pf, ∀ k < 512, exec (.adminRegWrite pid pf (0x2400 + 8 * k) v) s = .next (s.setPart pid { p with keyImp := sset 0 p.keyImp k v })
        ∧ exec (.hostRead (.window pid pf (0x2400 + 8 * k)) 3) s = .next { s with outbox := s.outbox ++ [.hostData (sget 0 p.keyImp k)] })
      ∧ (∀ pf, exec (.hostRead (.window pid pf 0x4100) 3) s = .next { s with outbox := s.outbox ++ [.hostData (BitVec.ofNat 64 s.powerLimit)] }
        ∧ ∀ c < 32, exec (.hostRead (.window pid pf (0x4000 + 8 * c)) 3) s = .next { s with
            freeCtr := s.freeCtr + 1, sense := sset 0 s.sense c (Config.freeWord s.freeCtr)
            outbox := s.outbox ++ [.hostData (Config.freeWord s.freeCtr)] })
      ∧ (swf 0 p.ev = true → ∃ ev, exec (.eventsClear pid v) s = .next (s.setPart pid { p with ev := ev })
        ∧ (∀ k < 64, (sget 0 ev 0).getLsbD k = ((sget 0 p.ev 0).getLsbD k && !(decide (k < 4) && v.getLsbD k)
          && !(decide (8 ≤ k ∧ k < 16) && v.getLsbD 3)))
        ∧ (∀ k < 64, (sget 0 ev 3).getLsbD k = ((sget 0 p.ev 3).getLsbD k && !(decide (k < 48) && v.getLsbD (k / 16))))
        ∧ ∀ j, j ≠ 0 → j ≠ 3 → sget 0 ev j = sget 0 p.ev j)

/-- R243, R418, R438, R457 to R462: training, replay, retraining and failure of the Seam, the order of its lanes, and the stores, loads,
atomics, acknowledgements, wakes, register writes and invalidations that arrive from the peer card. The model's own readings in it: log
20, log 40. -/
def Obligations.SeamEvents : Prop :=
  ∀ s : State,
    (∀ trained a b, (s.seam = .up → exec (.seamTrain trained a b) s = .next s)
      ∧ (s.seam = .retraining → exec (.seamTrain trained a b) s = .next (if trained then { s with seam := .up, replays := 0 } else s))
      ∧ (s.seam = .untrained ∨ s.seam = .down → exec (.seamTrain trained a b) s = .next
        (if trained = true ∧ a ≠ b then { s with seam := .up, cards := a, replays := 0 } else { s with seam := .untrained, cards := false })))
    ∧ (s.seam = .up →
      exec .flitReplay s = .next { s with replays := Min.min 8 (s.replays + 1) }
      ∧ (s.replays = 8 → exec .seamRetrain s = .next { s with seam := .retraining, replays := 0 })
      ∧ (s.replays ≠ 8 → exec .seamRetrain s = .next s))
    ∧ (s.seam = .retraining → swf Partition.reset s.parts = true →
      ∃ t, exec .seamDown s = .next t ∧ t.seam = .down ∧ t.unacked = []
        ∧ ∀ pid, (s.part pid).present = true → (s.part pid).paired.isSome = true → (t.part pid).run = .terminated)
    ∧ (∀ (die : Fin 2) pa (size : Fin 7) pid, s.seam = .up → s.homeOf pa = some pid → pa % 2 ^ size.val = 0 →
      let s0 : State := { s with replays := 0 }
      (∀ v : PeerData,
        let s1 := s0.l2Request pid none pa (byteMask pa (2 ^ size.val)) false (v.objid.map fun o => { objid := o.toNat, whole := false })
        let s2 := if v.tag = true ∧ size = 6 then s1.storeCap pa { tag := true, bits := v.bits }
          else s1.store pa (2 ^ size.val) (v.bits.toNat % 2 ^ (8 * 2 ^ size.val))
        exec (.peerStore die pa size v) s = .next { s2 with outbox := s2.outbox ++ [.peerAck] })
      ∧ (∀ walk, let s1 := if walk then s0.walkReads pid [pa] else s0
        exec (.peerLoad die pa { size := size, walk := walk, objid := none }) s = .next { s1.l2Request pid none pa 0 false none with
          outbox := s.outbox ++ [.peerData (BitVec.ofNat 512 (s.load pa (2 ^ size.val))) (decide (size = 6) && s.tagAt pa)] })
      ∧ (∀ walk (o : BitVec 20), s.readInteg pid pa o.toNat (byteMask pa (2 ^ size.val)) = none →
        exec (.peerLoad die pa { size := size, walk := walk, objid := some o }) s = .next { s0 with outbox := s.outbox ++ [.peerFailed] }))
    ∧ (∀ a b, Lane.passes b a = false ↔ b = a ∨ (b = .nonPosted ∧ a = .posted))
    ∧ (∀ pa (wide : Bool) (op : Fin 11) x y pid, let w := if wide then 8 else 4
      s.seam = .up → s.homeOf pa = some pid → pa % w = 0 → op ≠ 10 ∨ wide = false →
      let old := s.load pa w
      let u := x.toNat % 2 ^ (8 * w)
      let new : Option Nat := match op.val with
        | 0 => some ((old + u) % 2 ^ (8 * w))
        | 1 => some (old &&& u)
        | 2 => some (old ||| u)
        | 3 => some (old ^^^ u)
        | 4 => some (if asSigned w u < asSigned w old then u else old)
        | 5 => some (if asSigned w old < asSigned w u then u else old)
        | 6 => some (Min.min old u)
        | 7 => some (Max.max old u)
        | 8 => some u
        | 9 => if old = y.toNat % 2 ^ (8 * w) then some u else none
        | _ => some (rounded fp32 .rne ((fp32.decode old).2 ||| (fp32.decode u).2)
            ((fp32.decode old).1.add (fp32.decode u).1 .rne)).1
      let s1 := ({ s with replays := 0 } : State).dropLine pid pa
      let s2 := match new with | some v => s1.store pa w v | none => s1
      exec (.peerAtomic pa { wide := wide, objid := none } op x y) s = .next
        { s2 with outbox := s2.outbox ++ [.peerData (BitVec.ofNat 512 old) false] })
    ∧ (∀ n, let left := sget 0 s.unacked n - 1
      let s1 : State := { s with unacked := sset 0 s.unacked n left, replays := 0 }
      (left ≠ 0 ∨ (n < 4096 ∧ (s.strand n).soPeer = false) → exec (.peerAcknowledge n) s = .next s1)
      ∧ (left = 0 → n < 4096 → (s.strand n).soPeer = true → sget 0 s.unacked (4096 + (s.pidOf n).getD 0) = 0 →
        exec (.peerAcknowledge n) s = .next
          ((s1.setStrand n { s.strand n with soPeer := false }).writeParts n (s.strand n).parts)))
    ∧ ∀ pid : Fin 16, let p := s.part pid
      let s0 : State := { s with replays := 0 }
      p.paired.isSome = true →
      (∀ n, p.onDies = true → s.pidOf n = some pid.val →
        ((s.strand n).status = .asleep → exec (.peerWake pid n) s = .next (s0.setStrand n { s.strand n with
          status := .running, nextIssue := Max.max (s.strand n).nextIssue (s.cycle + 1) }))
        ∧ ((s.strand n).status = .running → exec (.peerWake pid n) s = .next (s0.setStrand n { s.strand n with token := true })))
      ∧ (∀ v n t, p.onDies = false → p.saved = some v → swf Strand.reset v.strands = true → (n, t) ∈ v.strands → t.status = .asleep →
        exec (.peerWake pid n) s = .next (s0.setPart pid { p with
          saved := some { v with strands := sset Strand.reset v.strands n { t with status := .running } } }))
      ∧ (∀ o, exec (.peerOfreeUpdate pid o) s = .next { s0.dropObject pid o.toNat with outbox := s.outbox ++ [.peerAck] })
      ∧ (∀ pa, exec (.peerInvalidation pid (.line pa)) s = .next { s0.dropDerived (pa / 2 ^ 7) with outbox := s.outbox ++ [.peerAck] })
      ∧ (∀ tag bits, exec (.peerInvalidation pid (.convpool tag bits)) s = .next { s0.setPart pid { p with
          convpool := { tag := tag, bits := bits } } with outbox := s.outbox ++ [.peerAck] })
      ∧ (swf Partition.reset s.parts = true → ∀ v : Word,
        (∃ u, exec (.peerInvalidation pid (.ptroot (v.setWidth 48))) s = .next u ∧ (u.part pid).desc.ptroot = v.setWidth 48
          ∧ (∀ c, ∀ e ∈ (u.core c).tlb, e.pid ≠ pid) ∧ u.mem = s.mem)
        ∧ (∃ u, exec (.peerInvalidation pid (.otbase v)) s = .next u ∧ (u.part pid).otbase = v &&& csrMask 0x052
          ∧ (∀ c, ∀ e ∈ (u.core c).objc, e.pid ≠ pid) ∧ u.mem = s.mem)
        ∧ ∃ u, exec (.peerInvalidation pid (.mtbase v)) s = .next u ∧ (u.part pid).mtbase = v &&& csrMask 0x051 ∧ u.mem = s.mem)

/-- R471 to R475, R478, R482: the head of a link queue starts; a unit of LNCPY is written, or faults and halts the queue with a record; a
chunk of LNRED is sent and combined with the partner's of its tag and index, each element read and written apart; a queue halts when the
partner halts or its chunk does not match; an operation completes and counts at its barrier. The model's own readings in it: log 4, log
56. -/
def Obligations.LinkEngineEvents : Prop :=
  ∀ (die : Fin 2) (pid : Fin 16) (s : State) (o : LinkOp) (rest : List LinkOp),
    let q := s.lq die pid
    let core := coreOf o.strand
    let n := o.prefixN
    let w := esize o.dst.fmt
    let total := elemCount o.dst
    q.halted = false → q.ops = o :: rest → s.seamHolds (some pid) = false → (s.part pid).run = .running → o.stop = none →
    (o.started = false → n < total → o.stale s (s.part pid) = none →
      let t := s.setLq die pid { q with ops := { o with started := true } :: rest }
      (o.red = false → exec (.lncpyUnitDeliver die pid) s = .next t)
      ∧ (o.red = true → o.sent = false → exec (.lnredChunkSend die pid) s = .next t))
    ∧ (o.started = true → n < total → o.red = false →
      (∀ a b, linkElem s o false n = .ok a → linkElem s o true n = .ok b →
        let s1 := (s.engTouch core a w false).engStore core o.strand b w (s.load a.pa w)
        let o1 := { o with prefixN := n + 1 }
        let done := bytesOf o.dst (n + 1)
        (o.aux ≠ 2 ∨ n + 1 = total ∨ s1.posted (some pid) = true → exec (.lncpyUnitDeliver die pid) s = .next (s1.setLinkHead die pid o1))
        ∧ (o.aux = 2 → n + 1 < total → s1.posted (some pid) = false → exec (.lncpyUnitDeliver die pid) s = .next
          ((s1.setLinkHead die pid { o1 with sub := done }).barSub o.auxPa (done - o.sub) 0)))
      ∧ (∀ f, linkElem s o false n = .error f → s.posted (some pid) = true → exec (.lncpyUnitDeliver die pid) s = .next s)
      ∧ (∀ f, linkElem s o false n = .error f → s.posted (some pid) = false → o.aux ≠ 2 →
        ∃ (t : State) (record : BitVec 512), exec (.lncpyUnitDeliver die pid) s = .next (t.post o.strand
            (mkEvent 3 0 .link (BitVec.ofNat 64 (f.info.cause.code.toNat * 2 ^ 8)) 5))
          ∧ t.lq die pid = { q with ops := { o with sent := false, own := [], before := [] } :: rest, halted := true, record := record }
          ∧ record.toNat / 2 ^ 23 % 2 = 1 ∧ record.toNat / 2 ^ 24 % 2 ^ 8 = f.info.cause.code.toNat
          ∧ record.toNat / 2 ^ 64 % 2 ^ 40 = n % 2 ^ 40 ∧ t.mem = s.mem))
    ∧ (∀ es, o.started = true → n < total ∨ o.met = false → o.red = true → o.sent = false → chunkElems s o n o.chunk = .ok es →
      let own := es.map fun e => BitVec.ofNat 32 (s.load e.1.pa (esize o.src.fmt))
      let before := es.map fun e => BitVec.ofNat 32 (s.load e.2.pa (esize o.src.fmt))
      let s1 := es.foldl (fun s e => s.engTouch core e.1 (esize o.src.fmt) false) s
      exec (.lnredChunkSend die pid) s = .next { s1.setLinkHead die pid { o with sent := true, own := own, before := before } with
        outbox := s1.outbox ++ [.chunk pid o.val o.chunkIndex o.src.fmt (o.src.extent 0) own] })
    ∧ (o.red = true → o.sent = true → let index := n * esize o.src.fmt / 4096
      (∀ (fmt : BitVec 6) partner es, fmt.toNat = o.src.fmt → partner.length = o.chunk → chunkElems s o n o.chunk = .ok es → o.aux ≠ 2 →
        let r := lnredElements o (esize o.src.fmt) es (o.own.zip (o.before.zip partner)) s
        exec (.lnredChunkCombine die pid { tag := o.val, index := index, fmt := fmt } (o.src.extent 0) partner) s = .next
          (r.1.setLinkHead die pid
            { o with prefixN := n + o.chunk, flags := r.2, sent := false, own := [], before := [], met := true }))
      ∧ (∀ (h : ChunkHead) extent partner, h.tag ≠ o.val ∨ h.index ≠ index → exec (.lnredChunkCombine die pid h extent partner) s = .next s)
      ∧ ∀ (fmt : BitVec 6) extent partner, (fmt.toNat ≠ o.src.fmt ∨ extent ≠ o.src.extent 0) → n = 0 → o.aux ≠ 2 →
        ∃ (t : State) (record : BitVec 512), exec (.lnredChunkCombine die pid { tag := o.val, index := 0, fmt := fmt } extent partner) s =
            .next (t.post o.strand (mkEvent 3 0 .link (BitVec.ofNat 64 (3 * 2 ^ 16 + Cause.capFormat.code.toNat * 2 ^ 8)) 5))
          ∧ t.lq die pid = { q with ops := { o with sent := false, own := [], before := [] } :: rest, halted := true, record := record }
          ∧ t.mem = s.mem)
    ∧ (∀ (u : State) (e : Elem × Elem) (own before partner : Nat), let w := esize o.src.fmt
      let r := linkSum o.src.fmt own partner
      (u.load e.1.pa w = own → u.load e.2.pa w = before →
        lnredElement o w u e own before partner = (u.engStore core o.strand e.2 w r.1, r.2))
      ∧ ∃ f a v, lnredElement o w u e own before partner = (({ u with freeCtr := f } : State).engStore core o.strand e.2 w v, (linkSum o.src.fmt a partner).2)
        ∧ (a = own ∨ a = u.load e.1.pa w) ∧ (v = (linkSum o.src.fmt a partner).1 ∨ v = u.load e.2.pa w))
    ∧ (∀ stop : PartnerStop, o.red = true → o.started = true → o.aux ≠ 2 → (∀ p ∈ rest, p.red = false ∨ p.val ≠ stop.tag) →
      (stop.tag = o.val → (stop.lstat = 4 ∨ (stop.lstat = 5 ∧ stop.index ≤ o.chunkIndex)) →
        ∃ (t : State) (record : BitVec 512) (cause : Nat), exec (.lnredPartnerHalt die pid stop) s = .next (t.post o.strand
            (mkEvent 3 0 .link (BitVec.ofNat 64 (stop.lstat.toNat * 2 ^ 16 + cause * 2 ^ 8)) 5))
          ∧ t.lq die pid = { q with ops := { o with sent := false, own := [], before := [] } :: rest, halted := true, record := record }
          ∧ t.mem = s.mem)
      ∧ (stop.tag = o.val → stop.lstat = 5 → o.chunkIndex < stop.index →
        exec (.lnredPartnerHalt die pid stop) s = .next (s.setLinkHead die pid { o with stop := some (stop.index, 5) }))
      ∧ (stop.tag ≠ o.val → exec (.lnredPartnerHalt die pid stop) s = .next (s.setLinkHead die pid o)))
    ∧ (o.started = true → total ≤ n → s.posted (some pid) = true → exec (.lqComplete die pid) s = .next s)
    ∧ (o.started = true → total ≤ n → o.red = true → o.met = false → exec (.lqComplete die pid) s = .next s)
    ∧ (o.started = true → total ≤ n → o.red = false ∨ o.met = true → s.posted (some pid) = false →
      let s1 := s.setLq die pid { q with ops := rest, done := o.seq }
      let s2 := if o.red then s1.setPart pid { s.part pid with liveTags := (s.part pid).liveTags.erase o.val } else s1
      (o.aux = 0 → exec (.lqComplete die pid) s = .next s2)
      ∧ (o.aux = 2 → exec (.lqComplete die pid) s = .next
        (s2.barSub o.auxPa (bytesOf o.dst n - o.sub) (if o.red then o.flags else 0))))
    ∧ (∀ x y, linkSum 0x05 x y = ((x + y) % 2 ^ 32, 0)
      ∧ linkSum 0x12 x y = rounded fp32 .rne ((fp32.decode x).2 ||| (fp32.decode y).2) ((fp32.decode x).1.add (fp32.decode y).1 .rne)
      ∧ (linkSum 0x11 x y).1 =
        (bf16.round (fp32.decode (fp32.round ((bf16.decode x).1.add (bf16.decode y).1 .rne).1 .rne false).1).1 .rne false).1)

/-- R275 to R291: an operation that may start does, an MMA with the planes exchanged; one whose rows are done leaves the queue, resumes its
strand, and MZERO, MRDROW and MWRROW have their effect. The model's own reading in it: log 3. -/
def Obligations.MatrixEvents : Prop :=
  ∀ (core : Nat) (s : State),
    let k := s.core core
    clusterRuns s (core / 8) = true →
    (∀ o ahead later, k.mq = ahead ++ o :: later → (∀ p ∈ ahead, ∃ t, p.start = some t ∧ t < s.cycle) → o.start = none →
      o.accepted < s.cycle → mayStart o ahead s.cycle = true → (∀ p ∈ ahead ++ later, p.seq ≠ o.seq) → (∀ t, o.kind ≠ .mwload t true) →
      let moves : Bool := match o.kind with
        | .mma true _ _ _ _ => true
        | _ => false
      let snap := match o.kind with
        | .mstore m _ _ => skeep (fun i => decide (i / 4096 = m)) k.acc
        | _ => o.snap
      let stores : Bool := match o.kind with
        | .mstore _ _ _ => true
        | _ => false
      let hold (p : MatOp) : MatOp := if stores = true ∧ p.seq < o.seq then s.holdOperand core p else p
      exec (.matrixOpStart core) s = .next (s.setCore core { k with
        mq := ahead.map hold ++ { o with start := some s.cycle, fin := s.cycle + o.span, snap := snap } :: later.map hold
        active := if moves then k.shadow else k.active
        shadow := if moves then k.active else k.shadow
        shadowNew := k.shadowNew && !moves }))
    ∧ ∀ o ahead later, k.mq = ahead ++ o :: later → (∀ p ∈ ahead, p.start = none ∨ s.cycle < p.fin) → o.start.isSome = true →
      o.fin ≤ s.cycle → o.row = o.rows → o.bad = none → (∀ p ∈ ahead ++ later, p.seq ≠ o.seq) → o.seq = k.mqDone + 1 → k.mqLate = [] →
      let i : Instr := .matrixOpComplete core
      let t := s.strand o.strand
      let done (c : Core) : State := s.setCore core { c with
        mq := ahead ++ later, mqDone := o.seq, mqLate := [], mqStored := k.storedAfter o, mflags := k.mflags ||| o.flags }
      let resumed (s : State) : State := if t.status = .inMma
        then s.setStrand o.strand { t with status := .running, nextIssue := Max.max t.nextIssue s.cycle } else s
      (∀ e tr, o.kind = .mwload tr e → exec i s = .next
        (if e then resumed (done { k with shadowNew := true }) else done { k with shadowNew := true }))
      ∧ (∀ a b c m n, o.kind = .mma a b c m n → exec i s = .next (resumed (done k)))
      ∧ (∀ m, o.kind = .mzero m → exec i s = .next (done { k with acc := sclear (m * 4096) (m * 4096 + 4096) k.acc }))
      ∧ (∀ m mode sat, o.kind = .mstore m mode sat → o.auxPas = [] → exec i s = .next (done k))
      ∧ (∀ m r v, o.kind = .mrdrow m r v → exec i s = .next ((done k).setStrand o.strand
        { t.setV v (BitVec.ofNat 1024 (packLanes 4 32 fun n => (sget 0 k.acc (m * 4096 + r * 32 + n)).toNat)) with
          vbusy := maskClear t.vbusy v }))
      ∧ ∀ m r d, o.kind = .mwrrow m r d → swf 0 k.acc = true →
        ∃ acc, exec i s = .next (done { k with acc := acc })
          ∧ (∀ n < 32, sget 0 acc (m * 4096 + r * 32 + n) = BitVec.ofNat 32 (elemOf d 4 n))
          ∧ ∀ x, x / 32 ≠ (m * 4096 + r * 32) / 32 → sget 0 acc x = sget 0 k.acc x

/-- R278, R285, R286, R290: a row of MMA adds 32 products with one rounding each, in order, to the accumulators of that row and no others;
a row of MWLOAD writes that row of the shadow plane; a row of MSTORE stores the converted values at the addresses of the tile and nowhere
else; an operand is read from memory as it was for a held row, and otherwise as it is with no earlier store outstanding. -/
def Obligations.MatrixRows : Prop :=
  ∀ (s : State) (core : Nat) (o : MatOp) (r : Nat), let k := s.core core
    (∀ sw t z m n, o.kind = .mma sw t z m n → k.mq ≠ [] → swf 0 k.acc = true → r < 128 →
      let kext := if t then ext1 o.cap 1 else o.cap.extent 0
      let a (j : Nat) : Machine.Num :=
        if j < kext then (bf16.decode (s.matOperand core o (if t then j * n + r else r * kext + j))).1 else .fin false 0 0
      let sum (col : Nat) : Nat := (List.range 32).foldl (fun acc j =>
        (fp32.round ((a j).fma (bf16.decode (sget 0 k.active (32 * j + col)).toNat).1 (fp32.decode acc).1 .rne).1 .rne false).1)
        (if z then 0x80000000 else (sget 0 k.acc (m * 4096 + r * 32 + col)).toNat)
      let k' := (s.rowOp core o r).core core
      (∀ col < 32, (sget 0 k'.acc (m * 4096 + r * 32 + col)).toNat = sum col % 2 ^ 32)
      ∧ (∀ x, x / 32 ≠ (m * 4096 + r * 32) / 32 → sget 0 k'.acc x = sget 0 k.acc x)
      ∧ (s.rowOp core o r).mem = s.mem ∧ k'.active = k.active ∧ k'.shadow = k.shadow)
    ∧ (∀ t, o.kind = .mwload t false → swf Core.reset s.cores = true → swf 0 k.shadow = true → r < 32 →
      let k' := (s.rowOp core o r).core core
      ∀ x, sget 0 k'.shadow x = if x / 32 = r
        then (match planePos o r (x % 32) with
          | some (_, pos) => BitVec.ofNat 16 (s.matOperand core o pos)
          | none => 0)
        else sget 0 k.shadow x)
    ∧ (∀ pos, (∀ vs, o.held = some vs → s.matOperand core o pos = vs.getD pos 0)
      ∧ (o.held = none → k.storesBefore o = [] → s.matOperand core o pos = s.load (o.pas.getD pos 0) 2))
    ∧ ∀ m mode sat f, o.kind = .mstore m mode sat → k.storesAfter o = [] → numFmt o.cap.fmt = some f → 0 < esize o.cap.fmt → Memory.wf s.mem →
      let e0 := o.cap.extent 0
      let pa (n : Nat) : Nat := o.pas.getD (r * e0 + n) 0
      (∀ n < e0, s.isPeer (pa n) = false) →
      (∀ i < e0, ∀ j < e0, i ≠ j → pa i + esize o.cap.fmt ≤ pa j ∨ pa j + esize o.cap.fmt ≤ pa i) →
      (∀ n < e0, (s.rowOp core o r).load (pa n) (esize o.cap.fmt)
        = (convert (.float fp32) f (rmOf mode) sat (sget 0 o.snap (m * 4096 + r * 32 + n)).toNat).1 % 2 ^ (8 * esize o.cap.fmt))
      ∧ ∀ x, (∀ n < e0, x < pa n ∨ pa n + esize o.cap.fmt ≤ x) → (s.rowOp core o r).byte x = s.byte x

/-- R305, R306, R313, R314, R317, R319, R325: the head of a copy queue starts, or faults on a stale operand; a unit of CFILL or of a plain
or converting CPY is written; a fault halts the queue with a record and posts ENGFAULT; a copy whose writes are visible completes, CPYB
and CPYW with their barrier and their word. The model's own readings in it: log 36, log 37, log 70, log 92, log 98. -/
def Obligations.CopyEvents : Prop :=
  ∀ (core : Nat) (qn : Fin 4) (s : State) (o : CopyOp) (rest : List CopyOp),
    let q := s.copyQueue core qn
    let n := o.prefixN
    let w := esize o.dst.fmt
    let total := elemCount o.dst
    q.halted = false → q.ops = o :: rest → clusterRuns s (core / 8) = true →
    (o.started = false → o.stale s (s.partOfCore core) = none →
      exec (.copyStart core qn) s = .next (s.setQueue core qn { q with ops := { o with started := true } :: rest }))
    ∧ (∀ t, o.started = false → o.stale s (s.partOfCore core) = some t → o.kind ≠ .cpf →
      (o.visible s = false → exec (.copyStart core qn) s = .next s)
      ∧ (o.visible s = true →
        let told : State := if o.kind = .cpyb
          then (s.setHead core qn { o with sub := bytesOf o.dst n }).barSub o.auxPa (bytesOf o.dst n - o.sub) 0 else s
        exec (.copyStart core qn) s = .next ((told.setQueue core qn { told.copyQueue core qn with
          halted := true, record := faultRecord o qn t.cause.code.toNat t.tcap.toNat true none t.tval }).post o.strand
            (mkEvent 2 qn .engfault (BitVec.ofNat 64 (t.cause.code.toNat * 2 ^ 8 + qn)) (BitVec.ofNat 64 qn)))))
    ∧ (∀ (t : State) (pa k : Nat),
      (o.old = [] → o.element t pa k = (t, t.load pa k)) ∧ ((o.element t pa k).2 = o.loadOf t pa k ∨ (o.element t pa k).2 = t.load pa k))
    ∧ (o.overlaps = false → o.keepOld s core = o.old)
    ∧ (o.started = true → n < total → o.dst.fmt ≠ 0x18 → s.seamHolds (s.pidOf o.strand) = false →
      (∀ v b, o.kind = .cfill v → engElem s core o.dst o.dstReg o.use (o.index n) = .ok b →
        exec (.copyUnitDeliver core qn) s = .next ((s.engStore core o.strand b w (v.toNat % 2 ^ (8 * w))).setHead core qn
          { o with prefixN := n + 1 }))
      ∧ (∀ v f, o.kind = .cfill v → engElem s core o.dst o.dstReg o.use (o.index n) = .error f → o.visible s = true →
        let s1 := s.walkedTo (.core core) f.info.walk
        exec (.copyUnitDeliver core qn) s = .next ((s1.setQueue core qn { q with
          halted := true
          record := faultRecord { o with sub := bytesOf o.dst n } qn f.info.cause.code.toNat f.info.tcap.toNat true none f.info.tval }).post
            o.strand (mkEvent 2 qn .engfault (BitVec.ofNat 64 (f.info.cause.code.toNat * 2 ^ 8 + qn)) (BitVec.ofNat 64 qn))))
      ∧ (∀ a b, o.kind = .cpy → o.blocks = false → o.pairing = .raw → engElem s core o.src o.srcReg useRead (o.source n) = .ok a →
        let r := o.element (s.engTouch core a (esize o.src.fmt) false) a.pa (esize o.src.fmt)
        engElem r.1 core o.dst o.dstReg o.use (o.index n) = .ok b →
        exec (.copyUnitDeliver core qn) s = .next ((r.1.engStore core o.strand b w r.2).setHead core qn
          { o with prefixN := n + 1, old := o.keepOld s core }))
      ∧ (∀ a b f g, o.kind = .cpy → o.blocks = false → o.pairing = .conv → numFmt o.src.fmt = some f → numFmt o.dst.fmt = some g →
        engElem s core o.src o.srcReg useRead (o.source n) = .ok a →
        let r := o.element (s.engTouch core a (esize o.src.fmt) false) a.pa (esize o.src.fmt)
        let v := copyRound g (f.decode r.2)
        engElem r.1 core o.dst o.dstReg o.use (o.index n) = .ok b →
        exec (.copyUnitDeliver core qn) s = .next ((r.1.engStore core o.strand b w v.1).setHead core qn
          { o with prefixN := n + 1, flags := o.flags ||| v.2, old := o.keepOld s core })))
    ∧ (o.started = true → total ≤ n → (o.scope = 5 → s.posted (s.pidOf o.strand) = false) → s.seamHolds (s.pidOf o.strand) = false →
      o.seq = q.done + 1 → q.late = [] →
      let s1 := s.setQueue core qn { q with ops := rest, done := o.seq, late := [] }
      (o.kind = .cpy ∨ o.kind = .cpys ∨ (∃ v, o.kind = .cfill v) ∨ (∃ m, o.kind = .cpym m) →
        exec (.copyComplete core qn) s = .next s1)
      ∧ (o.kind = .cpyb → exec (.copyComplete core qn) s = .next (s1.barSub o.auxPa (bytesOf o.dst n - o.sub) o.flags))
      ∧ ∀ v e, swf Core.reset s.cores = true → o.kind = .cpyw v → engElem s core o.aux o.auxReg useWrite [0] = .ok e → s.isPeer e.pa = false → ∃ s2 : State,
        exec (.copyComplete core qn) s = .next (s2.completionWord o.strand qn e.pa e.va v)
          ∧ s2.copyQueue core qn = { q with ops := rest, done := o.seq, late := [] })
    ∧ (swf Core.reset s.cores = true → o.started = true → o.kind = .cpf → o.seq = q.done + 1 → q.late = [] → ∃ t : State, exec (.cpfComplete core qn) s = .next t
      ∧ t.copyQueue core qn = { q with ops := rest, done := o.seq, late := [] } ∧ t.strands = s.strands)

/-- R203, R215 to R224, R265: an event taken enters the trap; an interrupt goes to the monitor and is lost without one; a full/empty request
that is due times out; a lock is taken from a holder that has issued too much; a post is pending behind those that come before it. The
model's own readings in it: log 12, log 24. -/
def Obligations.StrandEvents : Prop :=
  (∀ (n : Nat) (cause : BitVec 8) (tval tcap : Word) (s : State),
    let t := s.strand n
    let p := (s.pidOf n).elim Partition.reset s.part
    swf Core.reset s.cores = true → swf Cluster.reset s.clusters = true → (∀ e ∈ s.cores, ∀ r ∈ e.2.reqs, r.strand ≠ n) →
    (t.status = .running ∨ t.status = .parked ∨ t.status = .asleep) → t.hold = false → t.frames.length < 32 → tvecOk s p = true →
    causeCodes.contains cause = true → t.droppedBy (rc 31) = [] →
    ∃ u, exec (.trapEntry n cause tval tcap) s = .next u
      ∧ (u.strand n).tcause = BitVec.ofNat 64 cause.toNat ∧ (u.strand n).tepc = BitVec.ofInt 64 (t.pcc.base + t.pc)
      ∧ (u.strand n).tval = tval ∧ (u.strand n).tcap = tcap ∧ (u.strand n).pcc = p.tvecCode.unsealed ∧ (u.strand n).pc = 0
      ∧ (u.strand n).status = .running ∧ (u.strand n).frames = {
          pcc := t.pcc, retoff := t.pc, c30 := t.commitAll.readC 30, c31 := t.commitAll.readC 31, repsave := t.trep, trap := true } :: t.frames
      ∧ u.mem = s.mem ∧ ∀ k, k ≠ n → u.strand k = s.strand k)
  ∧ (∀ (pid : Fin 16) (code : BitVec 8) (s : State),
    (s.monitor pid = none → (s.part pid).monitorAway = false → exec (.interrupt pid code) s = .next s)
    ∧ (s.monitor pid = none → (s.part pid).monitorAway = true → exec (.interrupt pid code) s = .next { s with
        outbox := s.outbox ++ [.peerEvent pid ((s.part pid).pmon.toNat % 2 ^ 12) { item := 8, sub := 0, int := true, code := code, tval := 0, tcap := 0 }] })
    ∧ ∀ m, s.monitor pid = some m → (s.part pid).onDies = true →
      exec (.interrupt pid code) s = .next (s.post m { item := 8, sub := 0, int := true, code := code, tval := 0, tcap := 0 }))
  ∧ (∀ (n : Nat) (cause : BitVec 8) (tval tcap : Word) (s : State), let t := s.strand n
    (causeCodes.contains cause = false ∨ t.hold = true ∨ t.status = .free ∨ t.status = .ended ∨ t.status = .stopped ∨ t.status = .inMma) →
    exec (.trapEntry n cause tval tcap) s = .next s)
  ∧ (∀ (n core : Nat) (r : BankReq) (s : State), swf Core.reset s.cores = true → r ∈ (s.core core).reqs → r.strand = n → r.due ≤ s.cycle →
    (∀ e ∈ s.cores, ∀ q ∈ e.2.reqs, q.strand = n ∨ q.pa = r.pa → q = r) → (s.core core).reqs.length = 1 →
    (s.bankOf r.pa).map (·.1) = some core →
    exec (.syncTimeout n) s = .next (((s.setCore core { s.core core with reqs := [] }).setStrand n
      { s.strand n with status := .running, wait := .none }).post n
      (mkEvent 10 0 .syncTimeout (BitVec.ofNat 64 r.va) (BitVec.ofNat 64 r.args.rs1))))
  ∧ (∀ (core : Nat) (bank : Fin 16) (s : State) (l : Lock), (s.core core).lockOf bank = some l →
    (256 ≤ l.count → exec (.lockhold core bank) s = .next
      ((s.unlock core bank).post l.holder (mkEvent 4 0 .lockhold (BitVec.ofNat 64 bank.val) 0)))
    ∧ (l.count < 256 → exec (.lockhold core bank) s = .next s))
  ∧ ∀ (s : State) (n : Nat) (e : Event), let t := s.strand n
    (∀ x ∈ t.events, x.item < e.item ∨ (x.item = e.item ∧ x.sub ≤ e.sub)) → ((s.post n e).strand n).events = t.events ++ [e]

/-- R397 to R403, R451, R456: the all-asleep tree wakes the monitor or reports to the host; an uncorrectable error terminates its owner
and stops its strands; scrubbing counts; a block of an integrity object is checked against its MAC when it is read from GDDR7 and given
one when it is written back; a thermal stop stops the clocks for good; the power limit moves the clock. The model's own readings in it:
log 9, log 34, log 35, log 63, log 66, log 68, log 84, log 95. -/
def Obligations.ErrorEvents : Prop :=
  (∀ (pid : Fin 16) (s : State), let p := s.part pid
    (treeHigh s pid = false ∨ p.asleep = true → exec (.allasleep pid) s = .next s)
    ∧ (∀ m, treeHigh s pid = true → p.asleep = false → s.monitor pid = some m → p.onDies = true →
      exec (.allasleep pid) s = .next ((s.setPart pid { p with asleep := true }).post m (mkEvent 7 0 .allasleep 0 0)))
    ∧ (treeHigh s pid = true → p.asleep = false → s.monitor pid = none → p.monitorAway = true →
      exec (.allasleep pid) s = .next (s.setPart pid { p with asleep := true }))
    ∧ (treeHigh s pid = true → p.asleep = false → s.monitor pid = none → p.monitorAway = false →
      ∃ u, exec (.allasleep pid) s = .next u ∧ (u.part pid).asleep = true ∧ (sget 0 (u.part pid).ev 0).getLsbD 1 = true
        ∧ (sget 0 (u.part pid).ev 3).toNat / 2 ^ 16 % 2 ^ 16 = min 65535 ((sget 0 p.ev 3).toNat / 2 ^ 16 % 2 ^ 16 + 1)
        ∧ u.outbox = s.outbox ++ (if (sget 0 p.ev 0).getLsbD 1 then [] else [.msix pid 1])
        ∧ u.strands = s.strands ∧ u.mem = s.mem))
  ∧ (∀ (e : UeArgs) (s : State),
    let logged := s.setDie e.die { s.die e.die with errors := (s.die e.die).errors + 1 }
    (11 ≤ e.array.val → exec (.uncorrectableError e) s = .next s)
    ∧ (e.array.val < 11 → ueOwners s e = [] → exec (.uncorrectableError e) s = .next logged)
    ∧ (∀ p : Fin 16, e.array.val < 11 → ueOwners s e = [p.val] → ueClean s e = false → e.writeBack = false → (s.part p).run ≠ .terminated →
      ∃ u, exec (.uncorrectableError e) s = .next u ∧ (u.part p).run = .terminated
        ∧ (sget 0 (u.part p).ev 0).toNat / 2 ^ 8 = 1 ∧ (sget 0 (u.part p).ev 0).getLsbD 3 = true ∧ u.mem = s.mem
        ∧ (∀ n, s.pidOf n = some p.val → s.monitor p ≠ some n → (s.strand n).status ≠ .free →
          (u.strand n).status = .stopped ∧ (u.strand n).x = (s.strand n).x ∧ (u.strand n).c = (s.strand n).c)
        ∧ (∀ n, s.pidOf n ≠ some p.val → s.monitor p ≠ some n → u.strand n = s.strand n)
        ∧ (s.monitor p = none → (s.part p).monitorAway = false → swf 0 (s.part p).ev = true →
          sget 0 (u.part p).ev 1 = ueRecord e ∧ (sget 0 (u.part p).ev 0).getLsbD 0 = true)
        ∧ ∀ m, s.monitor p = some m → (s.part p).onDies = true → mkEvent 1 0 .ue (ueRecord e) 0 ∈ (u.strand m).events)
    ∧ (e.array.val < 11 → ueOwners s e ≠ [] → ueClean s e = true → ∃ u, exec (.uncorrectableError e) s = .next u ∧ u.strands = s.strands
        ∧ u.mem = s.mem ∧ u.parts = s.parts))
  ∧ (∀ (die : Fin 2) (s : State),
    exec (.scrub die true) s = .next (s.setDie die { s.die die with errors := (s.die die).errors + 1 })
    ∧ exec (.scrub die false) s = .next s)
  ∧ (∀ (pid : Fin 16) (pa : Nat) (objid : BitVec 20) (n : Nat) (reg : Reg) (s : State), s.pidOf n = some pid.val →
    (s.homeOf pa = some pid.val → exec (.gddr7BlockRead n pa objid reg) s = if s.readSound pid pa objid.toNat (BitVec.allOnes 128) then .next s
      else exec (.trapEntry n Cause.integrity.code (BitVec.ofNat 64 (pa / 256 * 256)) (BitVec.ofNat 64 reg.val)) s)
    ∧ (s.homeOf pa ≠ some pid.val → exec (.gddr7BlockRead n pa objid reg) s = .next s))
  ∧ (∀ (pid : Fin 16) (pa : Nat) (objid : BitVec 20) (n : Nat) (s : State), s.place pa = .gddr n → let d := s.die n
    let mine (w : GddrWrite) : Prop := w.pid = pid.val ∧ w.line / 2 = lineOf pa / 2
    (∀ w, d.writes.find? (fun w => decide (w.pid = pid.val) && decide (w.line / 2 = lineOf pa / 2)) = some w →
      exec (.gddr7BlockWrite pid pa objid) s = .next ((s.setDie n { d with writes := d.writes.erase w }).writeGddr n w))
    ∧ ((∀ w ∈ d.writes, ¬ mine w) → (∀ i < 2, ∀ l, d.lineOf pid (lineOf pa / 2 * 2 + i) = some l → l.dirty = 0 ∨ l.integ = none) →
      exec (.gddr7BlockWrite pid pa objid) s = .next s))
  ∧ (∀ (n v : Nat) (w : GddrWrite) (s : State), let b := (s.cardNo * 2 ^ 47 + n * 2 ^ 46 + w.line * 128) / 256 * 256
    let t := s.writeGddr n w
    Memory.wf s.mem → versionSlot s (s.part w.pid) w.objid = some v → (∀ i < 8, s.isPeer (macAt b + i) = false) →
    (macAt b + 8 ≤ b ∨ b + 256 ≤ macAt b) →
    t.load (macAt b) 8 = (Config.mac64 (s.part w.pid).macKey (BitVec.ofNat 2048 (t.loadUnder b 256)) (BitVec.ofNat 64 b)
      (BitVec.ofNat 20 w.objid) (s.version v)).toNat)
  ∧ (∀ (cl : Nat) (s : State), let ps := (s.parts.filter fun e => e.2.present).map (·.1)
    let s1 : State := { s with sense := sset 0 s.sense cl (Config.freeWord s.freeCtr), freeCtr := s.freeCtr + 1 }
    exec (.thermalNotice cl) s = .next (ps.foldl (fun s p => s.interrupt p 0x02) s1)
    ∧ ∃ u, exec (.thermalStop cl) s = .next u ∧ u.clocksOff = true ∧ (∀ p ∈ ps, (u.part p).run = .terminated)
      ∧ ∀ v : State, v.clocksOff = true → (∀ rest, v.agenda ≠ .powerOnReset :: rest) → step v = .fault .clocksStopped)
  ∧ ∀ (limit : Option Nat) (watts : Nat) (s : State), ∃ u, exec (.powerLimitStep { limit := limit, watts := watts }) s = .next u
    ∧ u.powerLimit = (match limit with
      | some w => if 300 ≤ w ∧ w ≤ 550 then w else s.powerLimit
      | none => s.powerLimit)
    ∧ u.clock = (if u.powerLimit = 0 ∨ watts ≤ u.powerLimit then min 29 (s.clock + 1) else max 1 (s.clock - 1))
    ∧ { u with clock := s.clock, powerLimit := s.powerLimit } = s

/-- R25, R211 to R214, R234, R248, R253, R260, R335, R341, R383, R391, R431, R433, R438: what a core, a cluster and a die do by
themselves: a SLOTMODE or L1CFG write that takes effect, a waiting BANKFMT or OFREE that goes on, a value that arrives, a line of the
register cache, a replay, the combining window, MTBASE, a page walk, an L2 request. The model's own readings in it: log 4, log 31, log 43,
log 54, log 67, log 73, log 85, log 93. -/
def Obligations.CoreEvents : Prop :=
  ∀ (core : Nat) (s : State), let k := s.core core
    (∀ v : Word, exec (.slotmodeWrite core v) s = .next (s.setCore core { k with
      slotNext := k.slotNext ++ [((s.cycle + 4 + 15) / 16 * 16, v.getLsbD 0)] }))
    ∧ (∀ from' v, k.slotNext = [(from', v)] → from' ≤ s.cycle →
      exec (.slotmodeSwitch core) s = .next (s.setCore core { k with slotFixed := v, slotNext := [] }))
    ∧ (∀ v : Word, let nb : BitVec 2 := v.setWidth 2
      exec (.l1cfgWrite core v) s = .next (if nb = 3 ∨ nb = k.nb then s else s.setCore core { k with l1cfgNext := some nb }))
    ∧ (∀ nb, k.l1cfgNext = some nb → (addressed s core (changesRole k.nb nb) = true → exec (.l1cfgReconfigure core) s = .next s)
      ∧ (addressed s core (changesRole k.nb nb) = false → core < 256 → Memory.wf s.mem → swf false s.tags = true → swf Core.reset s.cores = true →
        ∃ u, exec (.l1cfgReconfigure core) s = .next u ∧ (u.core core).nb = nb ∧ (u.core core).l1 = [] ∧ (u.core core).l1cfgNext = none
          ∧ (∀ b < 16, ∀ o < 2 ^ 16, let pa := s.window core + b * 2 ^ 16 + o
              if decide (l1First k.nb ≤ b) = decide (l1First nb ≤ b) then u.byte pa = s.byte pa ∧ u.tagAt pa = s.tagAt pa
              else u.byte pa = 0 ∧ u.tagAt pa = false)))
    ∧ (∀ n (a : EqArgs) b, coreOf n = core → (s.strand n).status = .parked → (s.strand n).hold = false → (s.strand n).wait = .bankfmt a →
      FormatReach (s.trying n) a b →
      (addressed (s.trying n) core (fun k => decide (k = b)) = false →
        exec (.bankfmtApply n) s = .next { (s.trying n).formatted a b with cur := s.cur, stalled := s.stalled })
      ∧ (addressed (s.trying n) core (fun k => decide (k = b)) = true → exec (.bankfmtApply n) s = .next s))
    ∧ (∀ n, (s.strand n).status ≠ .parked → exec (.bankfmtApply n) s = .next s ∧ exec (.ofreeCommit n) s = .next s)
    ∧ (∀ n (a : RArgs), coreOf n = core → (s.strand n).status = .parked → (s.strand n).hold = false →
      (∀ x z, (s.strand n).wait ≠ .ofreePeer x z) → ofreeAt s n = some a → LiveReach (s.trying n) a →
      (s.trying n).myPart.paired = none → inFlight (s.trying n) (s.trying n).myPid ((s.strand n).readC a.rs1).objid = false →
      exec (.ofreeCommit n) s = .next { (s.trying n).objectFreed a with cur := s.cur, stalled := s.stalled })
    ∧ (∀ n (a : RArgs) zero, coreOf n = core → (s.strand n).status = .parked → (s.strand n).wait = .ofreePeer a zero →
      (sget 0 s.unacked n = 0 → let s1 := s.freeBytes ((s.pidOf n).getD 0) ((s.strand n).readC a.rs1).objid zero
        exec (.ofreeCommit n) s = .next ((s1.setStrand n { (s.strand n).issued (syncOf a.sr (rc a.rs1)) [] with
          pc := (s.strand n).pc + 4, nextIssue := s.cycle + gapOf a.sc, status := .running, wait := .none }).countFor n))
      ∧ (sget 0 s.unacked n ≠ 0 → exec (.ofreeCommit n) s = .next s))
    ∧ (linksMove s (core / 8) = false → ∀ dir : Fin 2, exec (.linkArrival core dir) s = .next s)
    ∧ (linksMove s (core / 8) = true → ∀ (dir : Fin 2) e rest, s.link core dir = e :: rest → let n := e.strand core dir
      (e.ready ≤ s.cycle → (s.strand n).accepts e.reg = true → exec (.linkArrival core dir) s = .next
        ((s.setStrand n (((s.strand n).noteWrite e.reg).setReg e.num e.val)).setLink core dir rest))
      ∧ (s.cycle < e.ready ∨ (s.strand n).accepts e.reg = false → exec (.linkArrival core dir) s = .next s))
    ∧ (∀ n line, coreOf n = core → let key := 64 * (n % 16) + line % 64
      let fetched (l : List RegLine) : State :=
        (s.askImage n (line % 64)).setCore core { k with rcache := { key := key, written := false } :: l }
      ((s.strand n).status = .free ∨ (s.strand n).status = .ended → exec (.registerCacheFill n line) s = .next s)
      ∧ ((s.strand n).status ≠ .free → (s.strand n).status ≠ .ended →
        (∀ e, k.rcache.find? (fun e => decide (e.key = key)) = some e →
          exec (.registerCacheFill n line) s = .next (s.setCore core { k with rcache := e :: k.rcache.erase e }))
        ∧ ((∀ e ∈ k.rcache, e.key ≠ key) → k.rcache.length < 512 → exec (.registerCacheFill n line) s = .next (fetched k.rcache))
        ∧ ∀ v older newer, (∀ e ∈ k.rcache, e.key ≠ key) → k.rcache = newer ++ v :: older → 512 ≤ k.rcache.length → v ∉ newer →
          (s.strand (v.owner core)).gone = true → (∀ x ∈ older, (s.strand (x.owner core)).gone = false) →
          exec (.registerCacheFill n line) s = .next (fetched (newer ++ older))))
    ∧ (∀ n (cls : Fin 2) (reg : Reg), let r := if cls = 0 then rx reg else rv reg
      ((s.strand n).isDropped r = false ∨ (s.strand n).takesTraps = false → exec (.recipeReplay n cls reg) s = .next s)
      ∧ ∀ w d q len j, (s.strand n).takesTraps = true → (s.strand n).isDropped r = true → (s.strand n).recipe ((s.strand n).tieOf r - 1) = [w] →
        decodeWord w = .ok (.whole j) len → plainOf j = some q → q.sync = none → q.writes.head? = some d →
        (∀ x ∈ q.reads, (s.strand n).isDropped x = false ∧ (s.strand n).isFull x = true) →
        exec (.recipeReplay n cls reg) s = .next (s.setStrand n ((s.strand n).setReg r.num
          ((q.eff s.cycle { s.strand n with pend := [] }).commitAll.value d))))
    ∧ (exec (.windowAdjust core true) s = .next (s.setCore core { k with window := max 8 (k.window / 2), winRun := 0 })
      ∧ (k.winRun = 255 → exec (.windowAdjust core false) s = .next (s.setCore core { k with window := min 256 (k.window + 1), winRun := 0 }))
      ∧ (k.winRun ≠ 255 → exec (.windowAdjust core false) s = .next (s.setCore core { k with winRun := k.winRun + 1 })))
    ∧ ∀ (pid : Fin 16), (∀ v : Word, swf Partition.reset s.parts = true → swf Cluster.reset s.clusters = true → ∃ u, exec (.mtbaseWrite pid v) s = .next u
        ∧ (u.part pid).mtbase = v &&& csrMask 0x051 ∧ (∀ c < 32, s.pidOfCluster c = some pid.val → (u.cluster c).mcache = [])
        ∧ u.mem = s.mem ∧ u.strands = s.strands)
      ∧ (∀ va (write : Bool),
        (∀ l pa, translate s (some pid.val) va (if write then useWrite else useRead) = .ok (l, pa) →
          let m : Byte := if write then 0x06 else 0x04
          ∃ u, exec (.pageTableWalk pid va write) s = .next u ∧ u = (s.walkReads pid l.path).orByte (l.at_ + 1) m
            ∧ (s.isPeer (l.at_ + 1) = false → u.byte (l.at_ + 1) = s.byte (l.at_ + 1) ||| m) ∧ u.strands = s.strands)
        ∧ (∀ e, translate s (some pid.val) va (if write then useWrite else useRead) = .error e →
          exec (.pageTableWalk pid va write) s = .next (s.walkReads pid e.path)))
      ∧ ∀ va pa (write : Bool), ∃ u, exec (.l2SliceRequest pid va pa write) s = .next u
        ∧ { u with dies := s.dies, outbox := s.outbox } = s
        ∧ ∀ n, s.place pa = .gddr n → (s.part pid).wmask ≠ 0 → (∀ l ∈ sget [] (s.die n).l2 (setOf (lineOf pa)), l.prot = false) →
          ∃ l ∈ sget [] (u.die n).l2 (setOf (lineOf pa)), l.line = lineOf pa ∧ l.pid = pid.val ∧ (write = true → l.dirty = BitVec.allOnes 128)

/-- R52, R345, R352, R356, R363 to R366, R439 to R443, R467: a task starts with its operands and its place in the grid; the mailbox accepts a
record, or reports a malformed one; a KMU pass starts, takes its next page, and delivers it; a sweep clears the stale capabilities it
visits and then completes. The model's own readings in it: log 4, log 44, log 46, log 49, log 53. -/
def Obligations.DispatchEvents : Prop :=
  (∀ (cl n : Nat) (slot : Fin 32) (s : State) (pid home : Nat) (k : TaskStart) (l : Launch) (scnt : Nat),
    s.pidOfCluster cl = some pid → serving s cl = some ((home, slot.val), k, l, scnt) → (s.part pid).run = .running →
    startable s pid cl k.id scnt n = true → (∀ e ∈ k.xs, 0 < e.1 ∧ e.1 < 32) → k.cs.length ≤ 8 →
    ∃ u, exec (.taskStart cl slot n) s = .next u
      ∧ (u.strand n).status = .running ∧ (u.strand n).pcc = k.entry ∧ (u.strand n).pc = 0 ∧ (u.strand n).task = some k.id
      ∧ (u.strand n).readC 31 = k.c31 ∧ (∀ j c, k.cs[j]? = some c → (u.strand n).readC (j + 1) = c)
      ∧ (∀ j, k.cs.length < j → j < 30 → (u.strand n).readC j = Cap.null)
      ∧ (∀ r, 0 < r → r < 32 → (u.strand n).readX r = ((k.xs.reverse.find? fun e => e.1 = r).map (·.2)).getD 0)
      ∧ (∀ v, (u.strand n).readV v = 0) ∧ (∀ m, m ≠ n → u.strand m = s.strand m) ∧ u.launchAt home slot = some l)
  ∧ (∀ (l : Launch) (cl slot target f : Nat), l.converts = [] → l.queues.find? (fun q => decide (q.1 = target)) = some (target, f) → f < l.total →
    ∃ k l', l.nextTask cl slot target = some (k, l')
      ∧ k = {
          entry := l.method.entry.unsealed, cs := l.ops, c31 := l.c31
          id := { cluster := cl, slot := slot, gen := l.gen, flat := f }
          xs := regPairs l.method l.xs ++ [(10, BitVec.ofNat 64 (f % l.d0)), (11, BitVec.ofNat 64 (f / l.d0 % l.d1)),
            (12, BitVec.ofNat 64 (f / (l.d0 * l.d1))), (13, BitVec.ofNat 64 f)] }
      ∧ ∀ q ∈ l.queues, (q.1, if q.1 = target then q.2 + l.queues.length else q.2) ∈ l'.queues)
  ∧ (∀ (pid : Fin 16) (s : State),
    let p := s.part pid
    let c := p.mbctl.toNat
    let record := c / 2 ^ 12 % 2 ^ 36 * 2 ^ 12 + 128 * (p.mbhead.toNat % 2 ^ min 12 (c / 2 ^ 8 % 16))
    let home := lowestCluster s pid (c / 4 % 2)
    (c % 2 = 0 ∨ p.mbhead = p.mbtail ∨ p.run ≠ .running → exec (.mailboxAccept pid) s = .next s)
    ∧ (c % 2 = 1 → p.mbhead ≠ p.mbtail → p.run = .running →
      (hostLaunch pid record (home.getD 0) home.isSome s = none → exec (.mailboxAccept pid) s = .next s)
      ∧ (∀ t, hostLaunch pid record (home.getD 0) home.isSome s = some t →
        exec (.mailboxAccept pid) s = .next (t.setPart pid { t.part pid with mbhead := p.mbhead + 1 }))
      ∧ (s.load (record + 120) 8 ≠ 0 → Memory.wf s.mem → s.load (record + 24) 8 = 0 → c / 2 % 2 = 0 → s.isPeer (record + 104) = false →
        ∃ u, exec (.mailboxAccept pid) s = .next u ∧ u.load (record + 104) 8 = 2 ^ 63 + 1 ∧ (u.part pid).mbhead = p.mbhead + 1
          ∧ u.strands = s.strands ∧ (swf Cluster.reset s.clusters = true → ∀ c k, u.launchAt c k = s.launchAt c k))))
  ∧ (∀ (cl : Nat) (s : State) (q : Nat), swf Cluster.reset s.clusters = true → swf KvSlot.reset (s.cluster cl).kv = true →
    clusterRuns s cl = true → (s.cluster cl).pass = none → q < 64 → (s.kvSlot cl q).state = .pending →
    (∀ r < 64, (s.kvSlot cl r).state = .pending → (s.kvSlot cl q).age < (s.kvSlot cl r).age ∨ r = q) →
    ∃ u, exec (.kmuPassStart cl) s = .next u ∧ (u.cluster cl).pass = some { page := none, fetched := none, cause := 0, cores := [] }
      ∧ (∀ r < 64, u.kvSlot cl r = if (s.kvSlot cl r).state = .pending ∧ (s.kvSlot cl r).kpool = (s.kvSlot cl q).kpool
          ∧ (s.kvSlot cl r).vpool = (s.kvSlot cl q).vpool then { s.kvSlot cl r with state := .active } else s.kvSlot cl r)
      ∧ u.mem = s.mem ∧ u.strands = s.strands)
  ∧ (∀ (cl : Nat) (s : State) (ps : Pass), clusterRuns s cl = true → (s.cluster cl).pass = some ps → ps.page = none →
    let act := (List.range 64).filter fun q => decide ((s.kvSlot cl q).state = .active)
    (s.seamHolds (s.pidOfCluster cl) = true → exec (.kmuPageFetch cl) s = .next s)
    ∧ (s.seamHolds (s.pidOfCluster cl) = false → act = [] → exec (.kmuPageFetch cl) s = .next (s.setCluster cl { s.cluster cl with pass := none }))
    ∧ ∀ q0 rest page, s.seamHolds (s.pidOfCluster cl) = false → act = q0 :: rest → (∃ q ∈ act, page ∈ (s.kvSlot cl q).left) → (∀ q ∈ act, ∀ x ∈ (s.kvSlot cl q).left, page ≤ x) →
      ∃ u fetched cause, exec (.kmuPageFetch cl) s = .next u
        ∧ (u.cluster cl).pass = some {
            page := some page, fetched := fetched, cause := cause
            cores := ((List.range 8).map (8 * cl + ·)).filter fun c => act.any fun q => decide (coreOf (s.kvSlot cl q).owner = c)
              && (s.kvSlot cl q).left.contains page }
        ∧ (∀ t bs, fetchBoth cl (s.kvSlot cl q0).kpool (s.kvSlot cl q0).vpool page s = .ok (t, bs) → fetched = some bs ∧ cause = 0)
        ∧ (∀ c w, fetchBoth cl (s.kvSlot cl q0).kpool (s.kvSlot cl q0).vpool page s = .error (c, w) → fetched = none ∧ cause = c)
        ∧ u.strands = s.strands)
  ∧ (∀ (cl : Nat) (core : Fin 8) (s : State) (page q : Nat) (fetched : Option (List Byte)) (cause : Nat),
    let c := 8 * cl + core.val
    let act := (List.range 64).filter fun q => decide ((s.kvSlot cl q).state = .active) && decide (coreOf (s.kvSlot cl q).owner = c)
      && (s.kvSlot cl q).left.contains page
    let pass : Pass := { page := some page, fetched := fetched, cause := cause, cores := [c] }
    let k := s.kvSlot cl q
    let left := k.left.filter fun x => decide (x ≠ page)
    let record (buf cause : Nat) : KvSlot := { k with
      left := left, state := if left = [] then .drained else .active
      queue := k.queue ++ [{ page := page, pos := k.ids.idxOf page, cause := cause, buf := buf, age := (s.cluster cl).kvAge }] }
    clusterRuns s cl = true → (s.cluster cl).pass = some pass → act = [q] →
    (fetched = none → ∃ u, exec (.kmuPageDeliver cl core) s = .next u ∧ u.kvSlot cl q = record 0 cause
      ∧ (u.cluster cl).pass = some { page := none, fetched := none, cause := 0, cores := [] } ∧ u.mem = s.mem)
    ∧ (∀ bs, fetched = some bs → (∀ b < 4, bufUsed s cl c b = true) → exec (.kmuPageDeliver cl core) s = .next s)
    ∧ (∀ bs b t, swf Cluster.reset s.clusters = true → fetched = some bs → b < 4 → bufUsed s cl c b = false → (∀ x < b, bufUsed s cl c x = true) →
      writeBuffer c b k.kpool bs s = .ok t → ∃ u, exec (.kmuPageDeliver cl core) s = .next u ∧ u.kvSlot cl q = record b 0
        ∧ (u.cluster cl).pass = some { page := none, fetched := none, cause := 0, cores := [] } ∧ u.mem = t.mem))
  ∧ ∀ (pid : Fin 16) (s : State), let p := s.part pid
    (p.sweepActive = false ∨ p.run = .descheduled → (∀ loc, exec (.sweepVisit pid loc) s = .next s) ∧ exec (.sweepComplete { pid := pid, peer := false }) s = .next s)
    ∧ (p.sweepActive = true → p.run ≠ .descheduled → Memory.wf s.mem → swf false s.tags = true → swf Strand.reset s.strands = true →
      swf Partition.reset s.parts = true → (∀ n, swf Cap.null (s.strand n).c = true) →
      (∀ pa, ownsGranule s pid pa = true → ∃ u, exec (.sweepVisit pid (.granule pa)) s = .next u
        ∧ (∀ x, u.tagAt x = if x / 64 = pa / 64 ∧ s.tagAt pa = true ∧ (staleRecord s p (s.loadCap (pa / 64 * 64))).isSome then false
            else s.tagAt x)
        ∧ u.mem = s.mem ∧ u.strands = s.strands)
      ∧ (∀ n, s.pidOfCluster (n / 8) = some pid.val → ∃ u, exec (.sweepVisit pid (.core n)) s = .next u ∧ u.mem = s.mem ∧ u.tags = s.tags
        ∧ ∀ m, coreOf m = n → ∀ r, sget Cap.null (u.strand m).c r = visited s p (sget Cap.null (s.strand m).c r))
      ∧ (p.sweepPend = false → p.paired = none ∨ p.sweepThere = true → ∃ u, exec (.sweepComplete { pid := pid, peer := false }) s = .next u
        ∧ (u.part pid).sweepActive = false ∧ (u.part pid).sweepDone = ((p.sweepNext + 2 ^ 31 - 1) % 2 ^ 31 + 1) % 2 ^ 31
        ∧ ∀ x, u.tagAt x = true → ownsGranule s pid (x / 64 * 64) = true → staleRecord s p (s.loadCap (x / 64 * 64)) = none)
      ∧ (p.paired ≠ none → p.sweepThere = false → p.sweepHere = false → ∃ u, exec (.sweepComplete { pid := pid, peer := false }) s = .next u
        ∧ (u.part pid).sweepActive = true ∧ (u.part pid).sweepHere = true ∧ u.outbox = s.outbox ++ [.peerSweep pid]
        ∧ ∀ x, u.tagAt x = true → ownsGranule s pid (x / 64 * 64) = true → staleRecord s p (s.loadCap (x / 64 * 64)) = none))
    ∧ (p.sweepActive = false ∨ p.paired = none → exec (.sweepComplete { pid := pid, peer := true }) s = .next s)
    ∧ (p.sweepActive = true → p.paired ≠ none → p.sweepHere = false →
      exec (.sweepComplete { pid := pid, peer := true }) s = .next (s.setPart pid { p with sweepThere := true }))
    ∧ (p.sweepActive = true → p.paired ≠ none → p.sweepHere = true → p.sweepPend = false → swf Partition.reset s.parts = true →
      ∃ u, exec (.sweepComplete { pid := pid, peer := true }) s = .next u ∧ (u.part pid).sweepActive = false
        ∧ (u.part pid).sweepDone = ((p.sweepNext + 2 ^ 31 - 1) % 2 ^ 31 + 1) % 2 ^ 31)

/-- R54 to R60, R74, R75: decoding the bytes of an encoded well-formed instruction gives it back, with its length, whatever follows; and what
the decoder accepts is well-formed and encodes to the very bytes it was read from. -/
def Obligations.EncodeDecode : Prop :=
  (∀ i w rest, i.WellFormed = true → encode i = some w →
    ∃ f, decode (wordBytes i.len w ++ rest) = .ok f i.len ∧ f.toInstr = i)
  ∧ ∀ bs f len, decode bs = .ok f len → f.toInstr.WellFormed = true ∧ f.toInstr.len = len
      ∧ ∃ w, encode f.toInstr = some w ∧ wordBytes len w = bs.take len

/-- R54 to R60: words written out bit by bit from Table 2.1 and the function codes decode to the instructions they stand for, and a word with
a reserved major or with bit 31 set is refused. -/
def Obligations.WordsOfTheSpec : Prop :=
  -- ADD: SR 1, rs2 7, rs1 6, rd 5, SC 2, major 0x00
  decodeTableWord 32 0b0_00_0000_1_00111_00110_00101_10_000000_1 = some (.add { rd := 5, rs1 := 6, rs2 := 7, sr := true, h := 0, sc := 2 })
  -- SRLI by 33: imm10 33, f3 5, rs1 6, rd 5, SC 1, major 0x02
  ∧ decodeTableWord 32 0b0000100001_101_00110_00101_01_000010_1 = some (.srli { rd := 5, rs1 := 6, imm := 33, sc := 1 })
  -- FFMA in BF16: f4 3, rs2 9, rs1 8, rd 10, SC 0, major 0x05
  ∧ decodeTableWord 32 0b0_11_0011_0_01001_01000_01010_00_000101_1 =
    some (.ffma { ty := .bf16, rd := 10, rs1 := 8, rs2 := 9, sr := false, h := 3, sc := 0 })
  -- BLT: offset -2 halfwords, split {[31:27], [13:9]}, f3 2, rs2 2, rs1 1, SC 0, major 0x08
  ∧ decodeTableWord 32 0b11111_010_00010_00001_11110_00_001000_1 = some (.blt { rs1 := 1, rs2 := 2, imm := -2, sc := 0 })
  -- JAL: offset -1
  ∧ decodeTableWord 32 0b11111111111111111111111_11_001001_1 = some (.jal { off := -1, sc := 3 })
  -- LW: imm10 -512
  ∧ decodeTableWord 32 0b1000000000_010_00011_00100_00_001100_1 = some (.lw { rd := 4, rs1 := 3, imm := -512, sc := 0 })
  -- SD: offset 511
  ∧ decodeTableWord 32 0b01111_011_00010_00011_11111_00_001101_1 = some (.sd { rs1 := 3, rs2 := 2, imm := 511, sc := 0 })
  -- the end-of-kernel marker
  ∧ decodeTableWord 16 0 = some .endOfKernel
  -- a reserved major and a set reserved bit are refused
  ∧ decodeTableWord 32 0b0_00_0000_0_00000_00000_00000_00_001110_1 = none
  ∧ decodeTableWord 32 0b1_00_0000_0_00111_00110_00101_00_000000_1 = none

/-- R75, R85 to R87, R228: when it is a core's turn, the context that comes first in its slot runs and was ready when the cycle began, nothing
pending is taken, and the bytes at its pc decode to an instruction, then the step is exec of that instruction, after the accesses of its
fetch, and the register cache follows; one that is held leaves the slot, empty under SLOTMODE.FIXED. The order of the cores within a cycle
is the model's (log 3). The model's own readings in it: log 16, log 17, log 85. -/
def Obligations.StepRunsInstruction : Prop :=
  ∀ (s : State) (pid : Nat) (f : Fetched) (len : Nat) (es : List Elem),
    let n := 16 * s.turn + s.cycle % 16
    let t := s.strand n
    let s1 : State := { ({ s with turn := s.turn + 1 } : State).useCaches n with cur := n, stalled := false }
    s.agenda = [] → s.clocksOff = false → s.turn < 256 → s.pidOf n = some pid → (s.part pid).run = .running → s.ready.contains n = true →
    t.status = .running → t.hold = false → t.soPeer = false → (∀ e ∈ t.events, t.takes e = false) → t.nextIssue ≤ s.cycle →
    s1.me.status = .running → s1.me.rep = none → staleRecord s1 s1.myPart s1.me.pcc = none →
    s1.me.pc % 2 = 0 → 0 ≤ s1.me.pc → s1.me.pc + len ≤ s1.me.pcc.extent 0 → es.length = len →
    (∀ (k : Nat) e, es[k]? = some e → Reached s1 useRead 1 none s1.me.pcc.objid (s1.me.pcc.base + s1.me.pc + k) e) →
    decode (es.map fun e => s1.byte e.pa) = .ok f len →
    let r := exec f.toInstr (s1.touchFetch es)
    (∀ u, r = .next u → u.stalled = false → step s = .next (u.follow s))
    ∧ (∀ u, r = .next u → u.stalled = true → (s.core s.turn).slotFixed = true → step s = .next { s with turn := s.turn + 1 })

/-- R5 and the reset columns: after reset every table and memory is in canonical form, every context is free, the g registers are zero and
full, every core has its reset configuration, its matrix queue, its copy queues and its links empty, every link queue is empty and runs,
every full/empty bit and waiter bit is clear, no partition exists, no firmware runs and the Seam is untrained. Memory that reads 0 and
registers without a reset column are the model's choice (log 1, log 2). -/
def Obligations.ResetState : Prop :=
  let s := State.reset
  s.MemOk ∧ s.TablesOk
  ∧ (∀ n, (s.strand n).status = .free) ∧ s.cycle = 0
  ∧ (∀ core r, sget 0 (s.core core).g r = 0 ∧ (s.core core).gEmpty = 0)
  ∧ (∀ core, (s.core core).slotFixed = false ∧ (s.core core).admitMask = 0 ∧ (s.core core).nb = 1 ∧ (s.core core).mflags = 0
      ∧ (s.core core).mq = [] ∧ (∀ q, s.copyQueue core q = CopyQueue.reset) ∧ (∀ dir, s.link core dir = [])
      ∧ ∀ b, (s.core core).bfmtOf b = 0 ∧ (s.core core).lockOf b = none)
  ∧ (∀ die pid, (s.lq die pid).ops = [] ∧ (s.lq die pid).halted = false)
  ∧ (∀ pa, s.fullBit pa = false ∧ s.waiterBit pa = false)
  ∧ (∀ pid, (s.part pid).present = false ∧ (s.part pid).wmask = 0xFFFF ∧ (s.part pid).tvecCode = Cap.null ∧ (s.part pid).pmon = 0)
  ∧ s.firmware = false ∧ s.seam = .untrained ∧ s.m0 = 0 ∧ s.m1 = 0 ∧ (∀ k, sget 0 s.sense k = 0) ∧ s.ready = []

/-- Derived from R3 and R29: every byte, tag and full/empty bit has one place, so that two memories that read the same are the same data. The
canonical form is the model's own (log 1). -/
def Obligations.StepKeepsMemory : Prop := ∀ s t : State, s.MemOk → step s = .next t → t.MemOk

/-- Derived from R14, R19 and R20, which give a strand its registers: the registers of a strand, and each table of the package, live or
saved by a swap, stay in canonical form, so that two states that read the same are the same data. The canonical form is the model's own
(log 1). -/
def Obligations.StepKeepsTables : Prop := ∀ s t : State, s.TablesOk → step s = .next t → t.TablesOk

/-- R7: an instruction of majors 0x00 to 0x07, of the vector and predicate groups or a capability query leaves every register but its
destination as it was, FFLAGS too where it raises no flag, every special register, every byte of memory, every tag, and every other
strand, core, cluster, die and partition. Flags already set stay set. -/
def Obligations.RegisterFrame : Prop :=
  ∀ i p (s : State), plainOf i = some p → Ready p.reads p.writes p.lat s → s.me.ties = [] → s.lockFree →
    ∃ t, exec i s = .next t
      ∧ (∀ r, r ∉ p.writes → t.me.commitAll.value r = s.me.commitAll.value r)
      ∧ (∀ r, some r ≠ p.sync → r ∉ p.writes → t.me.isFull r = s.me.isFull r)
      ∧ ((integerTwo i).isSome ∨ (integerCount i).isSome ∨ (integerImm i).isSome ∨ (predicate i).isSome ∨ (capabilityQuery i).isSome →
          t.me.fflags = s.me.fflags)
      ∧ (∀ q, s.me.fflags.getLsbD q = true → t.me.fflags.getLsbD q = true)
      ∧ t.me.frm = s.me.frm ∧ t.me.schk = s.me.schk ∧ t.me.tcause = s.me.tcause ∧ t.me.tepc = s.me.tepc ∧ t.me.tval = s.me.tval
      ∧ t.me.tcap = s.me.tcap ∧ t.me.trep = s.me.trep ∧ t.me.repdone = s.me.repdone ∧ t.me.frames = s.me.frames ∧ t.me.pcc = s.me.pcc
      ∧ (∀ pa, t.byte pa = s.byte pa ∧ t.tagAt pa = s.tagAt pa ∧ t.fullBit pa = s.fullBit pa)
      ∧ (∀ n, n ≠ s.cur → t.strand n = s.strand n) ∧ t.cores = s.cores ∧ t.clusters = s.clusters ∧ t.dies = s.dies ∧ t.parts = s.parts

/-- R7, R29, R185 to R195: a load that passes its checks leaves every register but its destination, every byte and every tag as they were
(an LC while a sweep is active may clear the tag of the granule it reads: R442). A store that passes them changes no register and no byte
and no tag outside the elements that its capability and index give, and outside the granules they lie in; in this card's memory it leaves
its value there, with the tag clear, or with that of the capability that SC stores; in the peer card's memory it changes none of this
card's. In both the Accessed and Dirty bits of the page entry are apart (R433). The model's own readings in it: log 6, log 16, log 18, log
20. -/
def Obligations.MemoryFrame : Prop :=
  ∀ s : State, Memory.wf s.mem → swf false s.tags = true → s.lockFree → swf Strand.reset s.strands = true →
    (∀ i d rs n g e, numberLoad s i = some (d, rs, n, g) → Ready rs [rx d] 0 s → NumberReach s i useRead e →
      ∃ t, exec i s = .next t ∧ s.accessFrame t [e] (fun _ => False) (fun _ => False) (some (rx d))
        ∧ (bitOf e.leaf.entry 10 = true → t.mem = s.mem ∧ t.tags = s.tags ∧ t.parts = s.parts)
        ∧ t.me.readX d = if d = 0 then 0 else extended n g (s.load e.pa n))
    ∧ (∀ i d rs n e, numberStore s i = some (d, rs, n) → Ready rs [] 0 s → NumberReach s i useWrite e →
      let home := s.isPeer e.pa = false
      ∃ t, exec i s = .next t
        ∧ s.accessFrame t [e] (fun x => home ∧ e.pa ≤ x ∧ x < e.pa + n) (fun x => home ∧ x / 64 = e.pa / 64) none
        ∧ (home → (∀ x, x / 64 = e.pa / 64 → t.tagAt x = false)
          ∧ (e.leaf.at_ + 1 < e.pa ∨ e.pa + n ≤ e.leaf.at_ + 1 → t.load e.pa n = (s.me.readX d).toNat % 2 ^ (8 * n))))
    ∧ (∀ (a : VfArgs) (e : Elem),
      let c := s.me.readC a.vs1
      let v := s.me.readC a.vd
      let idx := [(s.me.readX a.vs2).toInt]
      let shape := decide (c.sparse = 0) && decide (c.fmt = 0x20)
      InBounds c idx →
      (Ready [rc a.vs1, rx a.vs2] [rc a.vd] 0 s → Allowed s c 0x0001 shape → Reached s useRead 64 (some c.fmt) c.objid (elementAddr c idx) e →
        ∃ t, exec (.lc a) s = .next t
          ∧ s.accessFrame t [e] (fun _ => False) (fun x => s.myPart.sweepActive = true ∧ x / 64 = e.pa / 64) (some (rc a.vd)))
      ∧ (Ready [rc a.vs1, rx a.vs2, rc a.vd] [] 0 s → Allowed s c (if v.tag then 0x000A else 0x0002) shape →
        (v.tag = true → staleRecord s s.myPart v = none ∧ (v.reach ≠ 0 ∨ c.perms.getLsbD 4 = true)) →
        Reached s { write := true, tagged := v.tag, raw := false } 64 (some c.fmt) c.objid (elementAddr c idx) e →
        let home := s.isPeer e.pa = false
        ∃ t, exec (.sc a) s = .next t
          ∧ s.accessFrame t [e] (fun x => home ∧ e.pa ≤ x ∧ x < e.pa + 64) (fun x => home ∧ x / 64 = e.pa / 64) none
          ∧ (home → (e.leaf.at_ + 1) / 64 ≠ e.pa / 64 → t.loadCap e.pa = v)))
    ∧ ∀ i a store rs idx (es : Nat → Elem), vectorAccess i = some (a, store, rs, idx) →
      let c := s.me.readC a.vs1
      let w := esize c.fmt
      let ls := accessLanes s a.pg w (rs.any fun r => r.cls == .v)
      let use := if store then useWrite else useRead
      let (reads, writes) := if store then (rc a.vs1 :: rs ++ [rv a.vd, rp a.pg], []) else (rc a.vs1 :: rs ++ [rp a.pg], [rv a.vd])
      let homes (f : Elem → Prop) : Prop := store = true ∧ ∃ l ∈ ls, s.isPeer (es l).pa = false ∧ f (es l)
      Ready reads writes 0 s → Allowed s c (if store then 0x0002 else 0x0001) (elementShape c) →
      (∀ l ∈ ls, InBounds c [idx s.me l] ∧ Reached s use w (some c.fmt) c.objid (elementAddr c [idx s.me l]) (es l)) →
      ∃ t, exec i s = .next t ∧ s.accessFrame t (ls.map es) (fun x => homes fun e => e.pa ≤ x ∧ x < e.pa + w)
        (fun x => homes fun e => x / 64 = e.pa / 64) (if store then none else some (rv a.vd))


/-- R8, R62, R66: a register with no later write pending holds a result once its latency has passed, and its old value until then; a write to
x0, c0 or p0 changes nothing, and they read zero, the null capability and all ones. -/
def Obligations.ResultReadable : Prop :=
  ∀ (t : Strand) (cycle lat : Nat) (r : RegRef) (v : RegVal), t.RegsOk → v.cls = r.cls →
    let seen (u : Strand) : RegVal := match v with
      | .m w keep => .v (keepBytes keep (u.readV r.num) w)
      | v => v
    (r.fixed = false → t.pendingAfter r (cycle + lat) = false →
      (lat = 0 → (t.put cycle lat r.num v).value r = seen t)
      ∧ (0 < lat → ((t.put cycle lat r.num v).commitUpTo (cycle + lat)).value r = seen (t.commitUpTo (cycle + lat))
        ∧ (t.put cycle lat r.num v).value r = t.value r))
    ∧ (r.fixed = true → t.put cycle lat r.num v = t ∧ t.isFull r = true)
    ∧ t.readX 0 = 0 ∧ t.readC 0 = Cap.null ∧ t.readP 0 = BitVec.allOnes 128
end

