-- ==== Sys2Proof/Laws/Sparse.lean ====
section
/-! SUPPORT. Reading, writing and the canonical form of sparse tables. -/

namespace Sys2Proof.Machine

theorem sget_sinsert_same {α : Type} (d : α) (m : Sparse α) (k : Nat) (v : α) : sget d (sinsert m k v) k = v := by
  induction m with
  | nil => simp [sinsert, sget]
  | cons e rest ih =>
    obtain ⟨j, w⟩ := e
    simp only [sinsert]
    split
    · simp [sget, *]
    · split <;> simp [sget]

theorem sget_sinsert_other {α : Type} (d : α) (m : Sparse α) {j k : Nat} (v : α) (h : j ≠ k) :
    sget d (sinsert m k v) j = sget d m j := by
  induction m with
  | nil => grind [sinsert, sget]
  | cons e rest ih => grind [sinsert, sget]

theorem sinsert_sinsert {α : Type} (m : Sparse α) (k : Nat) (v w : α) : sinsert (sinsert m k v) k w = sinsert m k w := by
  induction m with
  | nil => simp [sinsert]
  | cons e rest ih =>
    obtain ⟨j, u⟩ := e
    simp only [sinsert]
    split
    · simp [sinsert, *]
    · split <;> simp [sinsert]

theorem serase_sinsert {α : Type} (m : Sparse α) (k : Nat) (v : α) : serase (sinsert m k v) k = serase m k := by
  induction m with
  | nil => simp [sinsert, serase]
  | cons e rest ih =>
    obtain ⟨j, u⟩ := e
    simp only [sinsert]
    split
    · simp [serase, *]
    · split
      · subst_vars; simp [serase]
      · simp [serase, *]

/-- A value other than the default reads back, whatever the table. -/
theorem sget_sset_same_of_ne {α : Type} [DecidableEq α] (d : α) (m : Sparse α) (k : Nat) {v : α} (h : v ≠ d) :
    sget d (sset d m k v) k = v := by
  simp [sset, h, sget_sinsert_same]

/-- The second of two writes of a key is the one that stands. -/
theorem sset_sset_of_ne {α : Type} [DecidableEq α] (d : α) (m : Sparse α) (k : Nat) {v : α} (h : v ≠ d) (w : α) :
    sset d (sset d m k v) k w = sset d m k w := by
  simp only [sset, h, if_false]
  split <;> simp [sinsert_sinsert, serase_sinsert]

/-! The canonical form. -/

theorem sget_of_sabove {α : Type} (d : α) (m : Sparse α) {k : Nat} (h : sabove k m = true) : sget d m k = d := by
  cases m with
  | nil => rfl
  | cons e rest => grind [sget, sabove]

theorem sabove_mono {α : Type} (m : Sparse α) {j k : Nat} (hjk : j ≤ k) (h : sabove k m = true) : sabove j m = true := by
  simp only [sabove, List.all_eq_true, decide_eq_true_eq] at *
  exact fun e he => Nat.lt_of_le_of_lt hjk (h e he)

theorem sabove_sinsert {α : Type} (m : Sparse α) {j k : Nat} (v : α) (hm : sabove j m = true) (hk : j < k) :
    sabove j (sinsert m k v) = true := by
  induction m with
  | nil => simp [sinsert, sabove, hk]
  | cons e rest ih =>
    simp only [sabove, List.all_eq_true, decide_eq_true_eq] at *
    grind [sinsert]

theorem sabove_serase {α : Type} (m : Sparse α) {j : Nat} (k : Nat) (hm : sabove j m = true) : sabove j (serase m k) = true := by
  induction m with
  | nil => rfl
  | cons e rest ih =>
    simp only [sabove, List.all_eq_true, decide_eq_true_eq] at *
    grind [serase]

theorem swf_sinsert {α : Type} [DecidableEq α] (d : α) (m : Sparse α) (k : Nat) {v : α} (hv : v ≠ d) (h : swf d m = true) :
    swf d (sinsert m k v) = true := by
  induction m with
  | nil => simp [sinsert, swf, sabove, hv]
  | cons e rest ih =>
    obtain ⟨j, w⟩ := e
    simp only [swf, Bool.and_eq_true, decide_eq_true_eq] at h
    obtain ⟨⟨hw, ha⟩, hr⟩ := h
    simp only [sinsert]
    split
    · next hjk => simp only [swf, Bool.and_eq_true, decide_eq_true_eq]; exact ⟨⟨hw, sabove_sinsert rest v ha hjk⟩, ih hr⟩
    · split
      · subst_vars; simp [swf, hv, ha, hr]
      · have : k < j := by omega
        have hk : sabove k rest = true := sabove_mono rest (by omega) ha
        simp only [sabove] at hk
        simp [swf, sabove, hv, hw, hr, this]
        exact ⟨by simpa using hk, by simpa [sabove] using ha⟩

theorem swf_serase {α : Type} [DecidableEq α] (d : α) (m : Sparse α) (k : Nat) (h : swf d m = true) :
    swf d (serase m k) = true := by
  induction m with
  | nil => rfl
  | cons e rest ih =>
    obtain ⟨j, w⟩ := e
    simp only [swf, Bool.and_eq_true, decide_eq_true_eq] at h
    simp only [serase]
    split
    · simp only [swf, Bool.and_eq_true, decide_eq_true_eq]; exact ⟨⟨h.1.1, sabove_serase rest k h.1.2⟩, ih h.2⟩
    · split
      · exact h.2
      · simp [swf, h.1.1, h.1.2, h.2]

/-- A write keeps the canonical form. -/
theorem swf_sset {α : Type} [DecidableEq α] (d : α) (m : Sparse α) (k : Nat) (v : α) (h : swf d m = true) :
    swf d (sset d m k v) = true := by
  simp only [sset]
  split
  · exact swf_serase d m k h
  · exact swf_sinsert d m k ‹_› h

/-- Keeping some of the entries keeps the canonical form. -/
theorem swf_filter {α : Type} [DecidableEq α] (d : α) (m : Sparse α) (f : Nat × α → Bool) (h : swf d m = true) :
    swf d (m.filter f) = true := by
  induction m with
  | nil => rfl
  | cons e rest ih =>
    obtain ⟨j, w⟩ := e
    simp only [swf, Bool.and_eq_true, decide_eq_true_eq] at h
    simp only [List.filter_cons]
    split
    · simp only [swf, Bool.and_eq_true, decide_eq_true_eq]
      refine ⟨⟨h.1.1, ?_⟩, ih h.2⟩
      simp only [sabove, List.all_eq_true, decide_eq_true_eq] at *
      exact fun e he => h.1.2 e (List.mem_filter.1 he).1
    · exact ih h.2

theorem swf_skeep {α : Type} [DecidableEq α] (d : α) (f : Nat → Bool) (m : Sparse α) (h : swf d m = true) :
    swf d (skeep f m) = true := swf_filter d m _ h

theorem swf_sclear {α : Type} [DecidableEq α] (d : α) (lo hi : Nat) (m : Sparse α) (h : swf d m = true) :
    swf d (sclear lo hi m) = true := swf_skeep d _ m h

theorem sget_serase_same {α : Type} [DecidableEq α] (d : α) (m : Sparse α) (k : Nat) (h : swf d m = true) :
    sget d (serase m k) k = d := by
  induction m with
  | nil => rfl
  | cons e rest ih => grind [serase, sget, swf, sget_of_sabove]

theorem sget_serase_other {α : Type} [DecidableEq α] (d : α) (m : Sparse α) {j k : Nat} (h : swf d m = true) (hjk : j ≠ k) :
    sget d (serase m k) j = sget d m j := by
  induction m with
  | nil => rfl
  | cons e rest ih =>
    have hm : e.1 = k → j ≤ k → sget d rest j = d := by
      intro h1 h2
      simp only [swf, Bool.and_eq_true] at h
      exact sget_of_sabove d rest (sabove_mono rest (by omega) h.1.2)
    grind [serase, sget, swf]

/-- Reading the key just written. -/
theorem sget_sset_same {α : Type} [DecidableEq α] (d : α) (m : Sparse α) (k : Nat) (v : α) (h : swf d m = true) :
    sget d (sset d m k v) k = v := by
  simp only [sset]
  split
  · subst_vars; exact sget_serase_same _ m k h
  · exact sget_sinsert_same d m k v

/-- Reading any other key. -/
theorem sget_sset_other {α : Type} [DecidableEq α] (d : α) (m : Sparse α) {j k : Nat} (v : α) (h : swf d m = true) (hjk : j ≠ k) :
    sget d (sset d m k v) j = sget d m j := by
  simp only [sset]
  split
  · exact sget_serase_other d m h hjk
  · exact sget_sinsert_other d m v hjk

end Sys2Proof.Machine
end

