-- ==== Sys2Proof/Laws/State.lean ====
section
/-! SUPPORT. What each field of State and of Strand is after each of the shared updates: one lemma a field and update. -/

namespace Sys2Proof.Machine

/-! setStrand. -/

@[simp] theorem State.setStrand_cores (s : State) (n : Nat) (t : Strand) : (s.setStrand n t).cores = s.cores := rfl
@[simp] theorem State.setStrand_clusters (s : State) (n : Nat) (t : Strand) : (s.setStrand n t).clusters = s.clusters := rfl
@[simp] theorem State.setStrand_dies (s : State) (n : Nat) (t : Strand) : (s.setStrand n t).dies = s.dies := rfl
@[simp] theorem State.setStrand_parts (s : State) (n : Nat) (t : Strand) : (s.setStrand n t).parts = s.parts := rfl
@[simp] theorem State.setStrand_mem (s : State) (n : Nat) (t : Strand) : (s.setStrand n t).mem = s.mem := rfl
@[simp] theorem State.setStrand_tags (s : State) (n : Nat) (t : Strand) : (s.setStrand n t).tags = s.tags := rfl
@[simp] theorem State.setStrand_under (s : State) (n : Nat) (t : Strand) : (s.setStrand n t).under = s.under := rfl
@[simp] theorem State.setStrand_fe (s : State) (n : Nat) (t : Strand) : (s.setStrand n t).fe = s.fe := rfl
@[simp] theorem State.setStrand_versions (s : State) (n : Nat) (t : Strand) : (s.setStrand n t).versions = s.versions := rfl
@[simp] theorem State.setStrand_epoch (s : State) (n : Nat) (t : Strand) : (s.setStrand n t).epoch = s.epoch := rfl
@[simp] theorem State.setStrand_powerOns (s : State) (n : Nat) (t : Strand) : (s.setStrand n t).powerOns = s.powerOns := rfl
@[simp] theorem State.setStrand_m0 (s : State) (n : Nat) (t : Strand) : (s.setStrand n t).m0 = s.m0 := rfl
@[simp] theorem State.setStrand_m1 (s : State) (n : Nat) (t : Strand) : (s.setStrand n t).m1 = s.m1 := rfl
@[simp] theorem State.setStrand_firmware (s : State) (n : Nat) (t : Strand) : (s.setStrand n t).firmware = s.firmware := rfl
@[simp] theorem State.setStrand_clocksOff (s : State) (n : Nat) (t : Strand) : (s.setStrand n t).clocksOff = s.clocksOff := rfl
@[simp] theorem State.setStrand_dieGiB (s : State) (n : Nat) (t : Strand) : (s.setStrand n t).dieGiB = s.dieGiB := rfl
@[simp] theorem State.setStrand_clock (s : State) (n : Nat) (t : Strand) : (s.setStrand n t).clock = s.clock := rfl
@[simp] theorem State.setStrand_powerLimit (s : State) (n : Nat) (t : Strand) : (s.setStrand n t).powerLimit = s.powerLimit := rfl
@[simp] theorem State.setStrand_sense (s : State) (n : Nat) (t : Strand) : (s.setStrand n t).sense = s.sense := rfl
@[simp] theorem State.setStrand_cards (s : State) (n : Nat) (t : Strand) : (s.setStrand n t).cards = s.cards := rfl
@[simp] theorem State.setStrand_seam (s : State) (n : Nat) (t : Strand) : (s.setStrand n t).seam = s.seam := rfl
@[simp] theorem State.setStrand_replays (s : State) (n : Nat) (t : Strand) : (s.setStrand n t).replays = s.replays := rfl
@[simp] theorem State.setStrand_hostLink (s : State) (n : Nat) (t : Strand) : (s.setStrand n t).hostLink = s.hostLink := rfl
@[simp] theorem State.setStrand_hdmpart (s : State) (n : Nat) (t : Strand) : (s.setStrand n t).hdmpart = s.hdmpart := rfl
@[simp] theorem State.setStrand_hdmNext (s : State) (n : Nat) (t : Strand) : (s.setStrand n t).hdmNext = s.hdmNext := rfl
@[simp] theorem State.setStrand_unacked (s : State) (n : Nat) (t : Strand) : (s.setStrand n t).unacked = s.unacked := rfl
@[simp] theorem State.setStrand_outbox (s : State) (n : Nat) (t : Strand) : (s.setStrand n t).outbox = s.outbox := rfl
@[simp] theorem State.setStrand_cycle (s : State) (n : Nat) (t : Strand) : (s.setStrand n t).cycle = s.cycle := rfl
@[simp] theorem State.setStrand_turn (s : State) (n : Nat) (t : Strand) : (s.setStrand n t).turn = s.turn := rfl
@[simp] theorem State.setStrand_cur (s : State) (n : Nat) (t : Strand) : (s.setStrand n t).cur = s.cur := rfl
@[simp] theorem State.setStrand_agenda (s : State) (n : Nat) (t : Strand) : (s.setStrand n t).agenda = s.agenda := rfl
@[simp] theorem State.setStrand_freeCtr (s : State) (n : Nat) (t : Strand) : (s.setStrand n t).freeCtr = s.freeCtr := rfl
@[simp] theorem State.setStrand_stalled (s : State) (n : Nat) (t : Strand) : (s.setStrand n t).stalled = s.stalled := rfl
@[simp] theorem State.setStrand_ready (s : State) (n : Nat) (t : Strand) : (s.setStrand n t).ready = s.ready := rfl

/-! setCore. -/

@[simp] theorem State.setCore_strands (s : State) (n : Nat) (c : Core) : (s.setCore n c).strands = s.strands := rfl
@[simp] theorem State.setCore_clusters (s : State) (n : Nat) (c : Core) : (s.setCore n c).clusters = s.clusters := rfl
@[simp] theorem State.setCore_dies (s : State) (n : Nat) (c : Core) : (s.setCore n c).dies = s.dies := rfl
@[simp] theorem State.setCore_parts (s : State) (n : Nat) (c : Core) : (s.setCore n c).parts = s.parts := rfl
@[simp] theorem State.setCore_mem (s : State) (n : Nat) (c : Core) : (s.setCore n c).mem = s.mem := rfl
@[simp] theorem State.setCore_tags (s : State) (n : Nat) (c : Core) : (s.setCore n c).tags = s.tags := rfl
@[simp] theorem State.setCore_under (s : State) (n : Nat) (c : Core) : (s.setCore n c).under = s.under := rfl
@[simp] theorem State.setCore_fe (s : State) (n : Nat) (c : Core) : (s.setCore n c).fe = s.fe := rfl
@[simp] theorem State.setCore_versions (s : State) (n : Nat) (c : Core) : (s.setCore n c).versions = s.versions := rfl
@[simp] theorem State.setCore_epoch (s : State) (n : Nat) (c : Core) : (s.setCore n c).epoch = s.epoch := rfl
@[simp] theorem State.setCore_powerOns (s : State) (n : Nat) (c : Core) : (s.setCore n c).powerOns = s.powerOns := rfl
@[simp] theorem State.setCore_m0 (s : State) (n : Nat) (c : Core) : (s.setCore n c).m0 = s.m0 := rfl
@[simp] theorem State.setCore_m1 (s : State) (n : Nat) (c : Core) : (s.setCore n c).m1 = s.m1 := rfl
@[simp] theorem State.setCore_firmware (s : State) (n : Nat) (c : Core) : (s.setCore n c).firmware = s.firmware := rfl
@[simp] theorem State.setCore_clocksOff (s : State) (n : Nat) (c : Core) : (s.setCore n c).clocksOff = s.clocksOff := rfl
@[simp] theorem State.setCore_dieGiB (s : State) (n : Nat) (c : Core) : (s.setCore n c).dieGiB = s.dieGiB := rfl
@[simp] theorem State.setCore_clock (s : State) (n : Nat) (c : Core) : (s.setCore n c).clock = s.clock := rfl
@[simp] theorem State.setCore_powerLimit (s : State) (n : Nat) (c : Core) : (s.setCore n c).powerLimit = s.powerLimit := rfl
@[simp] theorem State.setCore_sense (s : State) (n : Nat) (c : Core) : (s.setCore n c).sense = s.sense := rfl
@[simp] theorem State.setCore_cards (s : State) (n : Nat) (c : Core) : (s.setCore n c).cards = s.cards := rfl
@[simp] theorem State.setCore_seam (s : State) (n : Nat) (c : Core) : (s.setCore n c).seam = s.seam := rfl
@[simp] theorem State.setCore_replays (s : State) (n : Nat) (c : Core) : (s.setCore n c).replays = s.replays := rfl
@[simp] theorem State.setCore_hostLink (s : State) (n : Nat) (c : Core) : (s.setCore n c).hostLink = s.hostLink := rfl
@[simp] theorem State.setCore_hdmpart (s : State) (n : Nat) (c : Core) : (s.setCore n c).hdmpart = s.hdmpart := rfl
@[simp] theorem State.setCore_hdmNext (s : State) (n : Nat) (c : Core) : (s.setCore n c).hdmNext = s.hdmNext := rfl
@[simp] theorem State.setCore_unacked (s : State) (n : Nat) (c : Core) : (s.setCore n c).unacked = s.unacked := rfl
@[simp] theorem State.setCore_outbox (s : State) (n : Nat) (c : Core) : (s.setCore n c).outbox = s.outbox := rfl
@[simp] theorem State.setCore_cycle (s : State) (n : Nat) (c : Core) : (s.setCore n c).cycle = s.cycle := rfl
@[simp] theorem State.setCore_turn (s : State) (n : Nat) (c : Core) : (s.setCore n c).turn = s.turn := rfl
@[simp] theorem State.setCore_cur (s : State) (n : Nat) (c : Core) : (s.setCore n c).cur = s.cur := rfl
@[simp] theorem State.setCore_agenda (s : State) (n : Nat) (c : Core) : (s.setCore n c).agenda = s.agenda := rfl
@[simp] theorem State.setCore_freeCtr (s : State) (n : Nat) (c : Core) : (s.setCore n c).freeCtr = s.freeCtr := rfl
@[simp] theorem State.setCore_stalled (s : State) (n : Nat) (c : Core) : (s.setCore n c).stalled = s.stalled := rfl
@[simp] theorem State.setCore_ready (s : State) (n : Nat) (c : Core) : (s.setCore n c).ready = s.ready := rfl

/-! setCluster. -/

@[simp] theorem State.setCluster_strands (s : State) (n : Nat) (c : Cluster) : (s.setCluster n c).strands = s.strands := rfl
@[simp] theorem State.setCluster_cores (s : State) (n : Nat) (c : Cluster) : (s.setCluster n c).cores = s.cores := rfl
@[simp] theorem State.setCluster_dies (s : State) (n : Nat) (c : Cluster) : (s.setCluster n c).dies = s.dies := rfl
@[simp] theorem State.setCluster_parts (s : State) (n : Nat) (c : Cluster) : (s.setCluster n c).parts = s.parts := rfl
@[simp] theorem State.setCluster_mem (s : State) (n : Nat) (c : Cluster) : (s.setCluster n c).mem = s.mem := rfl
@[simp] theorem State.setCluster_tags (s : State) (n : Nat) (c : Cluster) : (s.setCluster n c).tags = s.tags := rfl
@[simp] theorem State.setCluster_under (s : State) (n : Nat) (c : Cluster) : (s.setCluster n c).under = s.under := rfl
@[simp] theorem State.setCluster_fe (s : State) (n : Nat) (c : Cluster) : (s.setCluster n c).fe = s.fe := rfl
@[simp] theorem State.setCluster_versions (s : State) (n : Nat) (c : Cluster) : (s.setCluster n c).versions = s.versions := rfl
@[simp] theorem State.setCluster_epoch (s : State) (n : Nat) (c : Cluster) : (s.setCluster n c).epoch = s.epoch := rfl
@[simp] theorem State.setCluster_powerOns (s : State) (n : Nat) (c : Cluster) : (s.setCluster n c).powerOns = s.powerOns := rfl
@[simp] theorem State.setCluster_m0 (s : State) (n : Nat) (c : Cluster) : (s.setCluster n c).m0 = s.m0 := rfl
@[simp] theorem State.setCluster_m1 (s : State) (n : Nat) (c : Cluster) : (s.setCluster n c).m1 = s.m1 := rfl
@[simp] theorem State.setCluster_firmware (s : State) (n : Nat) (c : Cluster) : (s.setCluster n c).firmware = s.firmware := rfl
@[simp] theorem State.setCluster_clocksOff (s : State) (n : Nat) (c : Cluster) : (s.setCluster n c).clocksOff = s.clocksOff := rfl
@[simp] theorem State.setCluster_dieGiB (s : State) (n : Nat) (c : Cluster) : (s.setCluster n c).dieGiB = s.dieGiB := rfl
@[simp] theorem State.setCluster_clock (s : State) (n : Nat) (c : Cluster) : (s.setCluster n c).clock = s.clock := rfl
@[simp] theorem State.setCluster_powerLimit (s : State) (n : Nat) (c : Cluster) : (s.setCluster n c).powerLimit = s.powerLimit := rfl
@[simp] theorem State.setCluster_sense (s : State) (n : Nat) (c : Cluster) : (s.setCluster n c).sense = s.sense := rfl
@[simp] theorem State.setCluster_cards (s : State) (n : Nat) (c : Cluster) : (s.setCluster n c).cards = s.cards := rfl
@[simp] theorem State.setCluster_seam (s : State) (n : Nat) (c : Cluster) : (s.setCluster n c).seam = s.seam := rfl
@[simp] theorem State.setCluster_replays (s : State) (n : Nat) (c : Cluster) : (s.setCluster n c).replays = s.replays := rfl
@[simp] theorem State.setCluster_hostLink (s : State) (n : Nat) (c : Cluster) : (s.setCluster n c).hostLink = s.hostLink := rfl
@[simp] theorem State.setCluster_hdmpart (s : State) (n : Nat) (c : Cluster) : (s.setCluster n c).hdmpart = s.hdmpart := rfl
@[simp] theorem State.setCluster_hdmNext (s : State) (n : Nat) (c : Cluster) : (s.setCluster n c).hdmNext = s.hdmNext := rfl
@[simp] theorem State.setCluster_unacked (s : State) (n : Nat) (c : Cluster) : (s.setCluster n c).unacked = s.unacked := rfl
@[simp] theorem State.setCluster_outbox (s : State) (n : Nat) (c : Cluster) : (s.setCluster n c).outbox = s.outbox := rfl
@[simp] theorem State.setCluster_cycle (s : State) (n : Nat) (c : Cluster) : (s.setCluster n c).cycle = s.cycle := rfl
@[simp] theorem State.setCluster_turn (s : State) (n : Nat) (c : Cluster) : (s.setCluster n c).turn = s.turn := rfl
@[simp] theorem State.setCluster_cur (s : State) (n : Nat) (c : Cluster) : (s.setCluster n c).cur = s.cur := rfl
@[simp] theorem State.setCluster_agenda (s : State) (n : Nat) (c : Cluster) : (s.setCluster n c).agenda = s.agenda := rfl
@[simp] theorem State.setCluster_freeCtr (s : State) (n : Nat) (c : Cluster) : (s.setCluster n c).freeCtr = s.freeCtr := rfl
@[simp] theorem State.setCluster_stalled (s : State) (n : Nat) (c : Cluster) : (s.setCluster n c).stalled = s.stalled := rfl
@[simp] theorem State.setCluster_ready (s : State) (n : Nat) (c : Cluster) : (s.setCluster n c).ready = s.ready := rfl

/-! setDie. -/

@[simp] theorem State.setDie_strands (s : State) (n : Nat) (d : Die) : (s.setDie n d).strands = s.strands := rfl
@[simp] theorem State.setDie_cores (s : State) (n : Nat) (d : Die) : (s.setDie n d).cores = s.cores := rfl
@[simp] theorem State.setDie_clusters (s : State) (n : Nat) (d : Die) : (s.setDie n d).clusters = s.clusters := rfl
@[simp] theorem State.setDie_parts (s : State) (n : Nat) (d : Die) : (s.setDie n d).parts = s.parts := rfl
@[simp] theorem State.setDie_mem (s : State) (n : Nat) (d : Die) : (s.setDie n d).mem = s.mem := rfl
@[simp] theorem State.setDie_tags (s : State) (n : Nat) (d : Die) : (s.setDie n d).tags = s.tags := rfl
@[simp] theorem State.setDie_under (s : State) (n : Nat) (d : Die) : (s.setDie n d).under = s.under := rfl
@[simp] theorem State.setDie_fe (s : State) (n : Nat) (d : Die) : (s.setDie n d).fe = s.fe := rfl
@[simp] theorem State.setDie_versions (s : State) (n : Nat) (d : Die) : (s.setDie n d).versions = s.versions := rfl
@[simp] theorem State.setDie_epoch (s : State) (n : Nat) (d : Die) : (s.setDie n d).epoch = s.epoch := rfl
@[simp] theorem State.setDie_powerOns (s : State) (n : Nat) (d : Die) : (s.setDie n d).powerOns = s.powerOns := rfl
@[simp] theorem State.setDie_m0 (s : State) (n : Nat) (d : Die) : (s.setDie n d).m0 = s.m0 := rfl
@[simp] theorem State.setDie_m1 (s : State) (n : Nat) (d : Die) : (s.setDie n d).m1 = s.m1 := rfl
@[simp] theorem State.setDie_firmware (s : State) (n : Nat) (d : Die) : (s.setDie n d).firmware = s.firmware := rfl
@[simp] theorem State.setDie_clocksOff (s : State) (n : Nat) (d : Die) : (s.setDie n d).clocksOff = s.clocksOff := rfl
@[simp] theorem State.setDie_dieGiB (s : State) (n : Nat) (d : Die) : (s.setDie n d).dieGiB = s.dieGiB := rfl
@[simp] theorem State.setDie_clock (s : State) (n : Nat) (d : Die) : (s.setDie n d).clock = s.clock := rfl
@[simp] theorem State.setDie_powerLimit (s : State) (n : Nat) (d : Die) : (s.setDie n d).powerLimit = s.powerLimit := rfl
@[simp] theorem State.setDie_sense (s : State) (n : Nat) (d : Die) : (s.setDie n d).sense = s.sense := rfl
@[simp] theorem State.setDie_cards (s : State) (n : Nat) (d : Die) : (s.setDie n d).cards = s.cards := rfl
@[simp] theorem State.setDie_seam (s : State) (n : Nat) (d : Die) : (s.setDie n d).seam = s.seam := rfl
@[simp] theorem State.setDie_replays (s : State) (n : Nat) (d : Die) : (s.setDie n d).replays = s.replays := rfl
@[simp] theorem State.setDie_hostLink (s : State) (n : Nat) (d : Die) : (s.setDie n d).hostLink = s.hostLink := rfl
@[simp] theorem State.setDie_hdmpart (s : State) (n : Nat) (d : Die) : (s.setDie n d).hdmpart = s.hdmpart := rfl
@[simp] theorem State.setDie_hdmNext (s : State) (n : Nat) (d : Die) : (s.setDie n d).hdmNext = s.hdmNext := rfl
@[simp] theorem State.setDie_unacked (s : State) (n : Nat) (d : Die) : (s.setDie n d).unacked = s.unacked := rfl
@[simp] theorem State.setDie_outbox (s : State) (n : Nat) (d : Die) : (s.setDie n d).outbox = s.outbox := rfl
@[simp] theorem State.setDie_cycle (s : State) (n : Nat) (d : Die) : (s.setDie n d).cycle = s.cycle := rfl
@[simp] theorem State.setDie_turn (s : State) (n : Nat) (d : Die) : (s.setDie n d).turn = s.turn := rfl
@[simp] theorem State.setDie_cur (s : State) (n : Nat) (d : Die) : (s.setDie n d).cur = s.cur := rfl
@[simp] theorem State.setDie_agenda (s : State) (n : Nat) (d : Die) : (s.setDie n d).agenda = s.agenda := rfl
@[simp] theorem State.setDie_freeCtr (s : State) (n : Nat) (d : Die) : (s.setDie n d).freeCtr = s.freeCtr := rfl
@[simp] theorem State.setDie_stalled (s : State) (n : Nat) (d : Die) : (s.setDie n d).stalled = s.stalled := rfl
@[simp] theorem State.setDie_ready (s : State) (n : Nat) (d : Die) : (s.setDie n d).ready = s.ready := rfl

/-! setPart. -/

@[simp] theorem State.setPart_strands (s : State) (n : Nat) (p : Partition) : (s.setPart n p).strands = s.strands := rfl
@[simp] theorem State.setPart_cores (s : State) (n : Nat) (p : Partition) : (s.setPart n p).cores = s.cores := rfl
@[simp] theorem State.setPart_clusters (s : State) (n : Nat) (p : Partition) : (s.setPart n p).clusters = s.clusters := rfl
@[simp] theorem State.setPart_dies (s : State) (n : Nat) (p : Partition) : (s.setPart n p).dies = s.dies := rfl
@[simp] theorem State.setPart_mem (s : State) (n : Nat) (p : Partition) : (s.setPart n p).mem = s.mem := rfl
@[simp] theorem State.setPart_tags (s : State) (n : Nat) (p : Partition) : (s.setPart n p).tags = s.tags := rfl
@[simp] theorem State.setPart_under (s : State) (n : Nat) (p : Partition) : (s.setPart n p).under = s.under := rfl
@[simp] theorem State.setPart_fe (s : State) (n : Nat) (p : Partition) : (s.setPart n p).fe = s.fe := rfl
@[simp] theorem State.setPart_versions (s : State) (n : Nat) (p : Partition) : (s.setPart n p).versions = s.versions := rfl
@[simp] theorem State.setPart_epoch (s : State) (n : Nat) (p : Partition) : (s.setPart n p).epoch = s.epoch := rfl
@[simp] theorem State.setPart_powerOns (s : State) (n : Nat) (p : Partition) : (s.setPart n p).powerOns = s.powerOns := rfl
@[simp] theorem State.setPart_m0 (s : State) (n : Nat) (p : Partition) : (s.setPart n p).m0 = s.m0 := rfl
@[simp] theorem State.setPart_m1 (s : State) (n : Nat) (p : Partition) : (s.setPart n p).m1 = s.m1 := rfl
@[simp] theorem State.setPart_firmware (s : State) (n : Nat) (p : Partition) : (s.setPart n p).firmware = s.firmware := rfl
@[simp] theorem State.setPart_clocksOff (s : State) (n : Nat) (p : Partition) : (s.setPart n p).clocksOff = s.clocksOff := rfl
@[simp] theorem State.setPart_dieGiB (s : State) (n : Nat) (p : Partition) : (s.setPart n p).dieGiB = s.dieGiB := rfl
@[simp] theorem State.setPart_clock (s : State) (n : Nat) (p : Partition) : (s.setPart n p).clock = s.clock := rfl
@[simp] theorem State.setPart_powerLimit (s : State) (n : Nat) (p : Partition) : (s.setPart n p).powerLimit = s.powerLimit := rfl
@[simp] theorem State.setPart_sense (s : State) (n : Nat) (p : Partition) : (s.setPart n p).sense = s.sense := rfl
@[simp] theorem State.setPart_cards (s : State) (n : Nat) (p : Partition) : (s.setPart n p).cards = s.cards := rfl
@[simp] theorem State.setPart_seam (s : State) (n : Nat) (p : Partition) : (s.setPart n p).seam = s.seam := rfl
@[simp] theorem State.setPart_replays (s : State) (n : Nat) (p : Partition) : (s.setPart n p).replays = s.replays := rfl
@[simp] theorem State.setPart_hostLink (s : State) (n : Nat) (p : Partition) : (s.setPart n p).hostLink = s.hostLink := rfl
@[simp] theorem State.setPart_hdmpart (s : State) (n : Nat) (p : Partition) : (s.setPart n p).hdmpart = s.hdmpart := rfl
@[simp] theorem State.setPart_hdmNext (s : State) (n : Nat) (p : Partition) : (s.setPart n p).hdmNext = s.hdmNext := rfl
@[simp] theorem State.setPart_unacked (s : State) (n : Nat) (p : Partition) : (s.setPart n p).unacked = s.unacked := rfl
@[simp] theorem State.setPart_outbox (s : State) (n : Nat) (p : Partition) : (s.setPart n p).outbox = s.outbox := rfl
@[simp] theorem State.setPart_cycle (s : State) (n : Nat) (p : Partition) : (s.setPart n p).cycle = s.cycle := rfl
@[simp] theorem State.setPart_turn (s : State) (n : Nat) (p : Partition) : (s.setPart n p).turn = s.turn := rfl
@[simp] theorem State.setPart_cur (s : State) (n : Nat) (p : Partition) : (s.setPart n p).cur = s.cur := rfl
@[simp] theorem State.setPart_agenda (s : State) (n : Nat) (p : Partition) : (s.setPart n p).agenda = s.agenda := rfl
@[simp] theorem State.setPart_freeCtr (s : State) (n : Nat) (p : Partition) : (s.setPart n p).freeCtr = s.freeCtr := rfl
@[simp] theorem State.setPart_stalled (s : State) (n : Nat) (p : Partition) : (s.setPart n p).stalled = s.stalled := rfl
@[simp] theorem State.setPart_ready (s : State) (n : Nat) (p : Partition) : (s.setPart n p).ready = s.ready := rfl

/-! setMe. -/

@[simp] theorem State.setMe_cores (s : State) (t : Strand) : (s.setMe t).cores = s.cores := rfl
@[simp] theorem State.setMe_clusters (s : State) (t : Strand) : (s.setMe t).clusters = s.clusters := rfl
@[simp] theorem State.setMe_dies (s : State) (t : Strand) : (s.setMe t).dies = s.dies := rfl
@[simp] theorem State.setMe_parts (s : State) (t : Strand) : (s.setMe t).parts = s.parts := rfl
@[simp] theorem State.setMe_mem (s : State) (t : Strand) : (s.setMe t).mem = s.mem := rfl
@[simp] theorem State.setMe_tags (s : State) (t : Strand) : (s.setMe t).tags = s.tags := rfl
@[simp] theorem State.setMe_under (s : State) (t : Strand) : (s.setMe t).under = s.under := rfl
@[simp] theorem State.setMe_fe (s : State) (t : Strand) : (s.setMe t).fe = s.fe := rfl
@[simp] theorem State.setMe_versions (s : State) (t : Strand) : (s.setMe t).versions = s.versions := rfl
@[simp] theorem State.setMe_epoch (s : State) (t : Strand) : (s.setMe t).epoch = s.epoch := rfl
@[simp] theorem State.setMe_powerOns (s : State) (t : Strand) : (s.setMe t).powerOns = s.powerOns := rfl
@[simp] theorem State.setMe_m0 (s : State) (t : Strand) : (s.setMe t).m0 = s.m0 := rfl
@[simp] theorem State.setMe_m1 (s : State) (t : Strand) : (s.setMe t).m1 = s.m1 := rfl
@[simp] theorem State.setMe_firmware (s : State) (t : Strand) : (s.setMe t).firmware = s.firmware := rfl
@[simp] theorem State.setMe_clocksOff (s : State) (t : Strand) : (s.setMe t).clocksOff = s.clocksOff := rfl
@[simp] theorem State.setMe_dieGiB (s : State) (t : Strand) : (s.setMe t).dieGiB = s.dieGiB := rfl
@[simp] theorem State.setMe_clock (s : State) (t : Strand) : (s.setMe t).clock = s.clock := rfl
@[simp] theorem State.setMe_powerLimit (s : State) (t : Strand) : (s.setMe t).powerLimit = s.powerLimit := rfl
@[simp] theorem State.setMe_sense (s : State) (t : Strand) : (s.setMe t).sense = s.sense := rfl
@[simp] theorem State.setMe_cards (s : State) (t : Strand) : (s.setMe t).cards = s.cards := rfl
@[simp] theorem State.setMe_seam (s : State) (t : Strand) : (s.setMe t).seam = s.seam := rfl
@[simp] theorem State.setMe_replays (s : State) (t : Strand) : (s.setMe t).replays = s.replays := rfl
@[simp] theorem State.setMe_hostLink (s : State) (t : Strand) : (s.setMe t).hostLink = s.hostLink := rfl
@[simp] theorem State.setMe_hdmpart (s : State) (t : Strand) : (s.setMe t).hdmpart = s.hdmpart := rfl
@[simp] theorem State.setMe_hdmNext (s : State) (t : Strand) : (s.setMe t).hdmNext = s.hdmNext := rfl
@[simp] theorem State.setMe_unacked (s : State) (t : Strand) : (s.setMe t).unacked = s.unacked := rfl
@[simp] theorem State.setMe_outbox (s : State) (t : Strand) : (s.setMe t).outbox = s.outbox := rfl
@[simp] theorem State.setMe_cycle (s : State) (t : Strand) : (s.setMe t).cycle = s.cycle := rfl
@[simp] theorem State.setMe_turn (s : State) (t : Strand) : (s.setMe t).turn = s.turn := rfl
@[simp] theorem State.setMe_cur (s : State) (t : Strand) : (s.setMe t).cur = s.cur := rfl
@[simp] theorem State.setMe_agenda (s : State) (t : Strand) : (s.setMe t).agenda = s.agenda := rfl
@[simp] theorem State.setMe_freeCtr (s : State) (t : Strand) : (s.setMe t).freeCtr = s.freeCtr := rfl
@[simp] theorem State.setMe_stalled (s : State) (t : Strand) : (s.setMe t).stalled = s.stalled := rfl
@[simp] theorem State.setMe_ready (s : State) (t : Strand) : (s.setMe t).ready = s.ready := rfl

/-! setMyCore. -/

@[simp] theorem State.setMyCore_strands (s : State) (c : Core) : (s.setMyCore c).strands = s.strands := rfl
@[simp] theorem State.setMyCore_clusters (s : State) (c : Core) : (s.setMyCore c).clusters = s.clusters := rfl
@[simp] theorem State.setMyCore_dies (s : State) (c : Core) : (s.setMyCore c).dies = s.dies := rfl
@[simp] theorem State.setMyCore_parts (s : State) (c : Core) : (s.setMyCore c).parts = s.parts := rfl
@[simp] theorem State.setMyCore_mem (s : State) (c : Core) : (s.setMyCore c).mem = s.mem := rfl
@[simp] theorem State.setMyCore_tags (s : State) (c : Core) : (s.setMyCore c).tags = s.tags := rfl
@[simp] theorem State.setMyCore_under (s : State) (c : Core) : (s.setMyCore c).under = s.under := rfl
@[simp] theorem State.setMyCore_fe (s : State) (c : Core) : (s.setMyCore c).fe = s.fe := rfl
@[simp] theorem State.setMyCore_versions (s : State) (c : Core) : (s.setMyCore c).versions = s.versions := rfl
@[simp] theorem State.setMyCore_epoch (s : State) (c : Core) : (s.setMyCore c).epoch = s.epoch := rfl
@[simp] theorem State.setMyCore_powerOns (s : State) (c : Core) : (s.setMyCore c).powerOns = s.powerOns := rfl
@[simp] theorem State.setMyCore_m0 (s : State) (c : Core) : (s.setMyCore c).m0 = s.m0 := rfl
@[simp] theorem State.setMyCore_m1 (s : State) (c : Core) : (s.setMyCore c).m1 = s.m1 := rfl
@[simp] theorem State.setMyCore_firmware (s : State) (c : Core) : (s.setMyCore c).firmware = s.firmware := rfl
@[simp] theorem State.setMyCore_clocksOff (s : State) (c : Core) : (s.setMyCore c).clocksOff = s.clocksOff := rfl
@[simp] theorem State.setMyCore_dieGiB (s : State) (c : Core) : (s.setMyCore c).dieGiB = s.dieGiB := rfl
@[simp] theorem State.setMyCore_clock (s : State) (c : Core) : (s.setMyCore c).clock = s.clock := rfl
@[simp] theorem State.setMyCore_powerLimit (s : State) (c : Core) : (s.setMyCore c).powerLimit = s.powerLimit := rfl
@[simp] theorem State.setMyCore_sense (s : State) (c : Core) : (s.setMyCore c).sense = s.sense := rfl
@[simp] theorem State.setMyCore_cards (s : State) (c : Core) : (s.setMyCore c).cards = s.cards := rfl
@[simp] theorem State.setMyCore_seam (s : State) (c : Core) : (s.setMyCore c).seam = s.seam := rfl
@[simp] theorem State.setMyCore_replays (s : State) (c : Core) : (s.setMyCore c).replays = s.replays := rfl
@[simp] theorem State.setMyCore_hostLink (s : State) (c : Core) : (s.setMyCore c).hostLink = s.hostLink := rfl
@[simp] theorem State.setMyCore_hdmpart (s : State) (c : Core) : (s.setMyCore c).hdmpart = s.hdmpart := rfl
@[simp] theorem State.setMyCore_hdmNext (s : State) (c : Core) : (s.setMyCore c).hdmNext = s.hdmNext := rfl
@[simp] theorem State.setMyCore_unacked (s : State) (c : Core) : (s.setMyCore c).unacked = s.unacked := rfl
@[simp] theorem State.setMyCore_outbox (s : State) (c : Core) : (s.setMyCore c).outbox = s.outbox := rfl
@[simp] theorem State.setMyCore_cycle (s : State) (c : Core) : (s.setMyCore c).cycle = s.cycle := rfl
@[simp] theorem State.setMyCore_turn (s : State) (c : Core) : (s.setMyCore c).turn = s.turn := rfl
@[simp] theorem State.setMyCore_cur (s : State) (c : Core) : (s.setMyCore c).cur = s.cur := rfl
@[simp] theorem State.setMyCore_agenda (s : State) (c : Core) : (s.setMyCore c).agenda = s.agenda := rfl
@[simp] theorem State.setMyCore_freeCtr (s : State) (c : Core) : (s.setMyCore c).freeCtr = s.freeCtr := rfl
@[simp] theorem State.setMyCore_stalled (s : State) (c : Core) : (s.setMyCore c).stalled = s.stalled := rfl
@[simp] theorem State.setMyCore_ready (s : State) (c : Core) : (s.setMyCore c).ready = s.ready := rfl

/-! Accessors after an update of another table. -/

@[simp] theorem State.setStrand_core (s : State) (n : Nat) (t : Strand) (k : Nat) : (s.setStrand n t).core k = s.core k := rfl
@[simp] theorem State.setStrand_cluster (s : State) (n : Nat) (t : Strand) (k : Nat) : (s.setStrand n t).cluster k = s.cluster k := rfl
@[simp] theorem State.setStrand_die (s : State) (n : Nat) (t : Strand) (k : Nat) : (s.setStrand n t).die k = s.die k := rfl
@[simp] theorem State.setStrand_part (s : State) (n : Nat) (t : Strand) (k : Nat) : (s.setStrand n t).part k = s.part k := rfl
@[simp] theorem State.setStrand_myCore (s : State) (n : Nat) (t : Strand) : (s.setStrand n t).myCore = s.myCore := rfl
@[simp] theorem State.setCore_strand (s : State) (n : Nat) (c : Core) (k : Nat) : (s.setCore n c).strand k = s.strand k := rfl
@[simp] theorem State.setCore_cluster (s : State) (n : Nat) (c : Core) (k : Nat) : (s.setCore n c).cluster k = s.cluster k := rfl
@[simp] theorem State.setCore_die (s : State) (n : Nat) (c : Core) (k : Nat) : (s.setCore n c).die k = s.die k := rfl
@[simp] theorem State.setCore_part (s : State) (n : Nat) (c : Core) (k : Nat) : (s.setCore n c).part k = s.part k := rfl
@[simp] theorem State.setCore_me (s : State) (n : Nat) (c : Core) : (s.setCore n c).me = s.me := rfl
@[simp] theorem State.setCluster_strand (s : State) (n : Nat) (c : Cluster) (k : Nat) : (s.setCluster n c).strand k = s.strand k := rfl
@[simp] theorem State.setCluster_core (s : State) (n : Nat) (c : Cluster) (k : Nat) : (s.setCluster n c).core k = s.core k := rfl
@[simp] theorem State.setCluster_die (s : State) (n : Nat) (c : Cluster) (k : Nat) : (s.setCluster n c).die k = s.die k := rfl
@[simp] theorem State.setCluster_part (s : State) (n : Nat) (c : Cluster) (k : Nat) : (s.setCluster n c).part k = s.part k := rfl
@[simp] theorem State.setCluster_me (s : State) (n : Nat) (c : Cluster) : (s.setCluster n c).me = s.me := rfl
@[simp] theorem State.setCluster_myCore (s : State) (n : Nat) (c : Cluster) : (s.setCluster n c).myCore = s.myCore := rfl
@[simp] theorem State.setDie_strand (s : State) (n : Nat) (d : Die) (k : Nat) : (s.setDie n d).strand k = s.strand k := rfl
@[simp] theorem State.setDie_core (s : State) (n : Nat) (d : Die) (k : Nat) : (s.setDie n d).core k = s.core k := rfl
@[simp] theorem State.setDie_cluster (s : State) (n : Nat) (d : Die) (k : Nat) : (s.setDie n d).cluster k = s.cluster k := rfl
@[simp] theorem State.setDie_part (s : State) (n : Nat) (d : Die) (k : Nat) : (s.setDie n d).part k = s.part k := rfl
@[simp] theorem State.setDie_me (s : State) (n : Nat) (d : Die) : (s.setDie n d).me = s.me := rfl
@[simp] theorem State.setDie_myCore (s : State) (n : Nat) (d : Die) : (s.setDie n d).myCore = s.myCore := rfl
@[simp] theorem State.setPart_strand (s : State) (n : Nat) (p : Partition) (k : Nat) : (s.setPart n p).strand k = s.strand k := rfl
@[simp] theorem State.setPart_core (s : State) (n : Nat) (p : Partition) (k : Nat) : (s.setPart n p).core k = s.core k := rfl
@[simp] theorem State.setPart_cluster (s : State) (n : Nat) (p : Partition) (k : Nat) : (s.setPart n p).cluster k = s.cluster k := rfl
@[simp] theorem State.setPart_die (s : State) (n : Nat) (p : Partition) (k : Nat) : (s.setPart n p).die k = s.die k := rfl
@[simp] theorem State.setPart_me (s : State) (n : Nat) (p : Partition) : (s.setPart n p).me = s.me := rfl
@[simp] theorem State.setPart_myCore (s : State) (n : Nat) (p : Partition) : (s.setPart n p).myCore = s.myCore := rfl
@[simp] theorem State.setMe_core (s : State) (t : Strand) (k : Nat) : (s.setMe t).core k = s.core k := rfl
@[simp] theorem State.setMe_cluster (s : State) (t : Strand) (k : Nat) : (s.setMe t).cluster k = s.cluster k := rfl
@[simp] theorem State.setMe_die (s : State) (t : Strand) (k : Nat) : (s.setMe t).die k = s.die k := rfl
@[simp] theorem State.setMe_part (s : State) (t : Strand) (k : Nat) : (s.setMe t).part k = s.part k := rfl
@[simp] theorem State.setMe_myCore (s : State) (t : Strand) : (s.setMe t).myCore = s.myCore := rfl
@[simp] theorem State.setMyCore_strand (s : State) (c : Core) (k : Nat) : (s.setMyCore c).strand k = s.strand k := rfl
@[simp] theorem State.setMyCore_cluster (s : State) (c : Core) (k : Nat) : (s.setMyCore c).cluster k = s.cluster k := rfl
@[simp] theorem State.setMyCore_die (s : State) (c : Core) (k : Nat) : (s.setMyCore c).die k = s.die k := rfl
@[simp] theorem State.setMyCore_part (s : State) (c : Core) (k : Nat) : (s.setMyCore c).part k = s.part k := rfl
@[simp] theorem State.setMyCore_me (s : State) (c : Core) : (s.setMyCore c).me = s.me := rfl

/-! setX. -/

@[simp] theorem Strand.setX_c (t : Strand) (r : Nat) (v : Word) : (t.setX r v).c = t.c := by unfold Strand.setX; split <;> rfl
@[simp] theorem Strand.setX_v (t : Strand) (r : Nat) (v : Word) : (t.setX r v).v = t.v := by unfold Strand.setX; split <;> rfl
@[simp] theorem Strand.setX_p (t : Strand) (r : Nat) (v : Word) : (t.setX r v).p = t.p := by unfold Strand.setX; split <;> rfl
@[simp] theorem Strand.setX_emptyC (t : Strand) (r : Nat) (v : Word) : (t.setX r v).emptyC = t.emptyC := by unfold Strand.setX; split <;> rfl
@[simp] theorem Strand.setX_emptyV (t : Strand) (r : Nat) (v : Word) : (t.setX r v).emptyV = t.emptyV := by unfold Strand.setX; split <;> rfl
@[simp] theorem Strand.setX_zor (t : Strand) (r : Nat) (v : Word) : (t.setX r v).zor = t.zor := by unfold Strand.setX; split <;> rfl
@[simp] theorem Strand.setX_pcc (t : Strand) (r : Nat) (v : Word) : (t.setX r v).pcc = t.pcc := by unfold Strand.setX; split <;> rfl
@[simp] theorem Strand.setX_pc (t : Strand) (r : Nat) (v : Word) : (t.setX r v).pc = t.pc := by unfold Strand.setX; split <;> rfl
@[simp] theorem Strand.setX_fflags (t : Strand) (r : Nat) (v : Word) : (t.setX r v).fflags = t.fflags := by unfold Strand.setX; split <;> rfl
@[simp] theorem Strand.setX_frm (t : Strand) (r : Nat) (v : Word) : (t.setX r v).frm = t.frm := by unfold Strand.setX; split <;> rfl
@[simp] theorem Strand.setX_schk (t : Strand) (r : Nat) (v : Word) : (t.setX r v).schk = t.schk := by unfold Strand.setX; split <;> rfl
@[simp] theorem Strand.setX_tcause (t : Strand) (r : Nat) (v : Word) : (t.setX r v).tcause = t.tcause := by unfold Strand.setX; split <;> rfl
@[simp] theorem Strand.setX_tepc (t : Strand) (r : Nat) (v : Word) : (t.setX r v).tepc = t.tepc := by unfold Strand.setX; split <;> rfl
@[simp] theorem Strand.setX_tval (t : Strand) (r : Nat) (v : Word) : (t.setX r v).tval = t.tval := by unfold Strand.setX; split <;> rfl
@[simp] theorem Strand.setX_tcap (t : Strand) (r : Nat) (v : Word) : (t.setX r v).tcap = t.tcap := by unfold Strand.setX; split <;> rfl
@[simp] theorem Strand.setX_bskip (t : Strand) (r : Nat) (v : Word) : (t.setX r v).bskip = t.bskip := by unfold Strand.setX; split <;> rfl
@[simp] theorem Strand.setX_repdone (t : Strand) (r : Nat) (v : Word) : (t.setX r v).repdone = t.repdone := by unfold Strand.setX; split <;> rfl
@[simp] theorem Strand.setX_trep (t : Strand) (r : Nat) (v : Word) : (t.setX r v).trep = t.trep := by unfold Strand.setX; split <;> rfl
@[simp] theorem Strand.setX_bkpt (t : Strand) (r : Nat) (v : Word) : (t.setX r v).bkpt = t.bkpt := by unfold Strand.setX; split <;> rfl
@[simp] theorem Strand.setX_recipes (t : Strand) (r : Nat) (v : Word) : (t.setX r v).recipes = t.recipes := by unfold Strand.setX; split <;> rfl
@[simp] theorem Strand.setX_ties (t : Strand) (r : Nat) (v : Word) : (t.setX r v).ties = t.ties := by unfold Strand.setX; split <;> rfl
@[simp] theorem Strand.setX_dropV (t : Strand) (r : Nat) (v : Word) : (t.setX r v).dropV = t.dropV := by unfold Strand.setX; split <;> rfl
@[simp] theorem Strand.setX_frames (t : Strand) (r : Nat) (v : Word) : (t.setX r v).frames = t.frames := by unfold Strand.setX; split <;> rfl
@[simp] theorem Strand.setX_status (t : Strand) (r : Nat) (v : Word) : (t.setX r v).status = t.status := by unfold Strand.setX; split <;> rfl
@[simp] theorem Strand.setX_wait (t : Strand) (r : Nat) (v : Word) : (t.setX r v).wait = t.wait := by unfold Strand.setX; split <;> rfl
@[simp] theorem Strand.setX_token (t : Strand) (r : Nat) (v : Word) : (t.setX r v).token = t.token := by unfold Strand.setX; split <;> rfl
@[simp] theorem Strand.setX_hold (t : Strand) (r : Nat) (v : Word) : (t.setX r v).hold = t.hold := by unfold Strand.setX; split <;> rfl
@[simp] theorem Strand.setX_child (t : Strand) (r : Nat) (v : Word) : (t.setX r v).child = t.child := by unfold Strand.setX; split <;> rfl
@[simp] theorem Strand.setX_task (t : Strand) (r : Nat) (v : Word) : (t.setX r v).task = t.task := by unfold Strand.setX; split <;> rfl
@[simp] theorem Strand.setX_endStatus (t : Strand) (r : Nat) (v : Word) : (t.setX r v).endStatus = t.endStatus := by unfold Strand.setX; split <;> rfl
@[simp] theorem Strand.setX_pend (t : Strand) (r : Nat) (v : Word) : (t.setX r v).pend = t.pend := by unfold Strand.setX; split <;> rfl
@[simp] theorem Strand.setX_vbusy (t : Strand) (r : Nat) (v : Word) : (t.setX r v).vbusy = t.vbusy := by unfold Strand.setX; split <;> rfl
@[simp] theorem Strand.setX_nextIssue (t : Strand) (r : Nat) (v : Word) : (t.setX r v).nextIssue = t.nextIssue := by unfold Strand.setX; split <;> rfl
@[simp] theorem Strand.setX_soPeer (t : Strand) (r : Nat) (v : Word) : (t.setX r v).soPeer = t.soPeer := by unfold Strand.setX; split <;> rfl
@[simp] theorem Strand.setX_parts (t : Strand) (r : Nat) (v : Word) : (t.setX r v).parts = t.parts := by unfold Strand.setX; split <;> rfl
@[simp] theorem Strand.setX_rep (t : Strand) (r : Nat) (v : Word) : (t.setX r v).rep = t.rep := by unfold Strand.setX; split <;> rfl
@[simp] theorem Strand.setX_events (t : Strand) (r : Nat) (v : Word) : (t.setX r v).events = t.events := by unfold Strand.setX; split <;> rfl
@[simp] theorem Strand.setX_frameSel (t : Strand) (r : Nat) (v : Word) : (t.setX r v).frameSel = t.frameSel := by unfold Strand.setX; split <;> rfl

/-! setC. -/

@[simp] theorem Strand.setC_x (t : Strand) (r : Nat) (v : Cap) : (t.setC r v).x = t.x := by unfold Strand.setC; split <;> rfl
@[simp] theorem Strand.setC_v (t : Strand) (r : Nat) (v : Cap) : (t.setC r v).v = t.v := by unfold Strand.setC; split <;> rfl
@[simp] theorem Strand.setC_p (t : Strand) (r : Nat) (v : Cap) : (t.setC r v).p = t.p := by unfold Strand.setC; split <;> rfl
@[simp] theorem Strand.setC_emptyX (t : Strand) (r : Nat) (v : Cap) : (t.setC r v).emptyX = t.emptyX := by unfold Strand.setC; split <;> rfl
@[simp] theorem Strand.setC_emptyV (t : Strand) (r : Nat) (v : Cap) : (t.setC r v).emptyV = t.emptyV := by unfold Strand.setC; split <;> rfl
@[simp] theorem Strand.setC_zor (t : Strand) (r : Nat) (v : Cap) : (t.setC r v).zor = t.zor := by unfold Strand.setC; split <;> rfl
@[simp] theorem Strand.setC_pcc (t : Strand) (r : Nat) (v : Cap) : (t.setC r v).pcc = t.pcc := by unfold Strand.setC; split <;> rfl
@[simp] theorem Strand.setC_pc (t : Strand) (r : Nat) (v : Cap) : (t.setC r v).pc = t.pc := by unfold Strand.setC; split <;> rfl
@[simp] theorem Strand.setC_fflags (t : Strand) (r : Nat) (v : Cap) : (t.setC r v).fflags = t.fflags := by unfold Strand.setC; split <;> rfl
@[simp] theorem Strand.setC_frm (t : Strand) (r : Nat) (v : Cap) : (t.setC r v).frm = t.frm := by unfold Strand.setC; split <;> rfl
@[simp] theorem Strand.setC_schk (t : Strand) (r : Nat) (v : Cap) : (t.setC r v).schk = t.schk := by unfold Strand.setC; split <;> rfl
@[simp] theorem Strand.setC_tcause (t : Strand) (r : Nat) (v : Cap) : (t.setC r v).tcause = t.tcause := by unfold Strand.setC; split <;> rfl
@[simp] theorem Strand.setC_tepc (t : Strand) (r : Nat) (v : Cap) : (t.setC r v).tepc = t.tepc := by unfold Strand.setC; split <;> rfl
@[simp] theorem Strand.setC_tval (t : Strand) (r : Nat) (v : Cap) : (t.setC r v).tval = t.tval := by unfold Strand.setC; split <;> rfl
@[simp] theorem Strand.setC_tcap (t : Strand) (r : Nat) (v : Cap) : (t.setC r v).tcap = t.tcap := by unfold Strand.setC; split <;> rfl
@[simp] theorem Strand.setC_bskip (t : Strand) (r : Nat) (v : Cap) : (t.setC r v).bskip = t.bskip := by unfold Strand.setC; split <;> rfl
@[simp] theorem Strand.setC_repdone (t : Strand) (r : Nat) (v : Cap) : (t.setC r v).repdone = t.repdone := by unfold Strand.setC; split <;> rfl
@[simp] theorem Strand.setC_trep (t : Strand) (r : Nat) (v : Cap) : (t.setC r v).trep = t.trep := by unfold Strand.setC; split <;> rfl
@[simp] theorem Strand.setC_bkpt (t : Strand) (r : Nat) (v : Cap) : (t.setC r v).bkpt = t.bkpt := by unfold Strand.setC; split <;> rfl
@[simp] theorem Strand.setC_recipes (t : Strand) (r : Nat) (v : Cap) : (t.setC r v).recipes = t.recipes := by unfold Strand.setC; split <;> rfl
@[simp] theorem Strand.setC_ties (t : Strand) (r : Nat) (v : Cap) : (t.setC r v).ties = t.ties := by unfold Strand.setC; split <;> rfl
@[simp] theorem Strand.setC_dropX (t : Strand) (r : Nat) (v : Cap) : (t.setC r v).dropX = t.dropX := by unfold Strand.setC; split <;> rfl
@[simp] theorem Strand.setC_dropV (t : Strand) (r : Nat) (v : Cap) : (t.setC r v).dropV = t.dropV := by unfold Strand.setC; split <;> rfl
@[simp] theorem Strand.setC_frames (t : Strand) (r : Nat) (v : Cap) : (t.setC r v).frames = t.frames := by unfold Strand.setC; split <;> rfl
@[simp] theorem Strand.setC_status (t : Strand) (r : Nat) (v : Cap) : (t.setC r v).status = t.status := by unfold Strand.setC; split <;> rfl
@[simp] theorem Strand.setC_wait (t : Strand) (r : Nat) (v : Cap) : (t.setC r v).wait = t.wait := by unfold Strand.setC; split <;> rfl
@[simp] theorem Strand.setC_token (t : Strand) (r : Nat) (v : Cap) : (t.setC r v).token = t.token := by unfold Strand.setC; split <;> rfl
@[simp] theorem Strand.setC_hold (t : Strand) (r : Nat) (v : Cap) : (t.setC r v).hold = t.hold := by unfold Strand.setC; split <;> rfl
@[simp] theorem Strand.setC_child (t : Strand) (r : Nat) (v : Cap) : (t.setC r v).child = t.child := by unfold Strand.setC; split <;> rfl
@[simp] theorem Strand.setC_task (t : Strand) (r : Nat) (v : Cap) : (t.setC r v).task = t.task := by unfold Strand.setC; split <;> rfl
@[simp] theorem Strand.setC_endStatus (t : Strand) (r : Nat) (v : Cap) : (t.setC r v).endStatus = t.endStatus := by unfold Strand.setC; split <;> rfl
@[simp] theorem Strand.setC_pend (t : Strand) (r : Nat) (v : Cap) : (t.setC r v).pend = t.pend := by unfold Strand.setC; split <;> rfl
@[simp] theorem Strand.setC_vbusy (t : Strand) (r : Nat) (v : Cap) : (t.setC r v).vbusy = t.vbusy := by unfold Strand.setC; split <;> rfl
@[simp] theorem Strand.setC_nextIssue (t : Strand) (r : Nat) (v : Cap) : (t.setC r v).nextIssue = t.nextIssue := by unfold Strand.setC; split <;> rfl
@[simp] theorem Strand.setC_soPeer (t : Strand) (r : Nat) (v : Cap) : (t.setC r v).soPeer = t.soPeer := by unfold Strand.setC; split <;> rfl
@[simp] theorem Strand.setC_parts (t : Strand) (r : Nat) (v : Cap) : (t.setC r v).parts = t.parts := by unfold Strand.setC; split <;> rfl
@[simp] theorem Strand.setC_rep (t : Strand) (r : Nat) (v : Cap) : (t.setC r v).rep = t.rep := by unfold Strand.setC; split <;> rfl
@[simp] theorem Strand.setC_events (t : Strand) (r : Nat) (v : Cap) : (t.setC r v).events = t.events := by unfold Strand.setC; split <;> rfl
@[simp] theorem Strand.setC_frameSel (t : Strand) (r : Nat) (v : Cap) : (t.setC r v).frameSel = t.frameSel := by unfold Strand.setC; split <;> rfl

/-! setV. -/

@[simp] theorem Strand.setV_x (t : Strand) (r : Nat) (v : Vec) : (t.setV r v).x = t.x := rfl
@[simp] theorem Strand.setV_c (t : Strand) (r : Nat) (v : Vec) : (t.setV r v).c = t.c := rfl
@[simp] theorem Strand.setV_p (t : Strand) (r : Nat) (v : Vec) : (t.setV r v).p = t.p := rfl
@[simp] theorem Strand.setV_emptyX (t : Strand) (r : Nat) (v : Vec) : (t.setV r v).emptyX = t.emptyX := rfl
@[simp] theorem Strand.setV_emptyC (t : Strand) (r : Nat) (v : Vec) : (t.setV r v).emptyC = t.emptyC := rfl
@[simp] theorem Strand.setV_pcc (t : Strand) (r : Nat) (v : Vec) : (t.setV r v).pcc = t.pcc := rfl
@[simp] theorem Strand.setV_pc (t : Strand) (r : Nat) (v : Vec) : (t.setV r v).pc = t.pc := rfl
@[simp] theorem Strand.setV_fflags (t : Strand) (r : Nat) (v : Vec) : (t.setV r v).fflags = t.fflags := rfl
@[simp] theorem Strand.setV_frm (t : Strand) (r : Nat) (v : Vec) : (t.setV r v).frm = t.frm := rfl
@[simp] theorem Strand.setV_schk (t : Strand) (r : Nat) (v : Vec) : (t.setV r v).schk = t.schk := rfl
@[simp] theorem Strand.setV_tcause (t : Strand) (r : Nat) (v : Vec) : (t.setV r v).tcause = t.tcause := rfl
@[simp] theorem Strand.setV_tepc (t : Strand) (r : Nat) (v : Vec) : (t.setV r v).tepc = t.tepc := rfl
@[simp] theorem Strand.setV_tval (t : Strand) (r : Nat) (v : Vec) : (t.setV r v).tval = t.tval := rfl
@[simp] theorem Strand.setV_tcap (t : Strand) (r : Nat) (v : Vec) : (t.setV r v).tcap = t.tcap := rfl
@[simp] theorem Strand.setV_bskip (t : Strand) (r : Nat) (v : Vec) : (t.setV r v).bskip = t.bskip := rfl
@[simp] theorem Strand.setV_repdone (t : Strand) (r : Nat) (v : Vec) : (t.setV r v).repdone = t.repdone := rfl
@[simp] theorem Strand.setV_trep (t : Strand) (r : Nat) (v : Vec) : (t.setV r v).trep = t.trep := rfl
@[simp] theorem Strand.setV_bkpt (t : Strand) (r : Nat) (v : Vec) : (t.setV r v).bkpt = t.bkpt := rfl
@[simp] theorem Strand.setV_recipes (t : Strand) (r : Nat) (v : Vec) : (t.setV r v).recipes = t.recipes := rfl
@[simp] theorem Strand.setV_ties (t : Strand) (r : Nat) (v : Vec) : (t.setV r v).ties = t.ties := rfl
@[simp] theorem Strand.setV_dropX (t : Strand) (r : Nat) (v : Vec) : (t.setV r v).dropX = t.dropX := rfl
@[simp] theorem Strand.setV_frames (t : Strand) (r : Nat) (v : Vec) : (t.setV r v).frames = t.frames := rfl
@[simp] theorem Strand.setV_status (t : Strand) (r : Nat) (v : Vec) : (t.setV r v).status = t.status := rfl
@[simp] theorem Strand.setV_wait (t : Strand) (r : Nat) (v : Vec) : (t.setV r v).wait = t.wait := rfl
@[simp] theorem Strand.setV_token (t : Strand) (r : Nat) (v : Vec) : (t.setV r v).token = t.token := rfl
@[simp] theorem Strand.setV_hold (t : Strand) (r : Nat) (v : Vec) : (t.setV r v).hold = t.hold := rfl
@[simp] theorem Strand.setV_child (t : Strand) (r : Nat) (v : Vec) : (t.setV r v).child = t.child := rfl
@[simp] theorem Strand.setV_task (t : Strand) (r : Nat) (v : Vec) : (t.setV r v).task = t.task := rfl
@[simp] theorem Strand.setV_endStatus (t : Strand) (r : Nat) (v : Vec) : (t.setV r v).endStatus = t.endStatus := rfl
@[simp] theorem Strand.setV_pend (t : Strand) (r : Nat) (v : Vec) : (t.setV r v).pend = t.pend := rfl
@[simp] theorem Strand.setV_vbusy (t : Strand) (r : Nat) (v : Vec) : (t.setV r v).vbusy = t.vbusy := rfl
@[simp] theorem Strand.setV_nextIssue (t : Strand) (r : Nat) (v : Vec) : (t.setV r v).nextIssue = t.nextIssue := rfl
@[simp] theorem Strand.setV_soPeer (t : Strand) (r : Nat) (v : Vec) : (t.setV r v).soPeer = t.soPeer := rfl
@[simp] theorem Strand.setV_parts (t : Strand) (r : Nat) (v : Vec) : (t.setV r v).parts = t.parts := rfl
@[simp] theorem Strand.setV_rep (t : Strand) (r : Nat) (v : Vec) : (t.setV r v).rep = t.rep := rfl
@[simp] theorem Strand.setV_events (t : Strand) (r : Nat) (v : Vec) : (t.setV r v).events = t.events := rfl
@[simp] theorem Strand.setV_frameSel (t : Strand) (r : Nat) (v : Vec) : (t.setV r v).frameSel = t.frameSel := rfl

/-! setP. -/

@[simp] theorem Strand.setP_x (t : Strand) (r : Nat) (v : Pred) : (t.setP r v).x = t.x := by unfold Strand.setP; split <;> rfl
@[simp] theorem Strand.setP_c (t : Strand) (r : Nat) (v : Pred) : (t.setP r v).c = t.c := by unfold Strand.setP; split <;> rfl
@[simp] theorem Strand.setP_v (t : Strand) (r : Nat) (v : Pred) : (t.setP r v).v = t.v := by unfold Strand.setP; split <;> rfl
@[simp] theorem Strand.setP_emptyX (t : Strand) (r : Nat) (v : Pred) : (t.setP r v).emptyX = t.emptyX := by unfold Strand.setP; split <;> rfl
@[simp] theorem Strand.setP_emptyC (t : Strand) (r : Nat) (v : Pred) : (t.setP r v).emptyC = t.emptyC := by unfold Strand.setP; split <;> rfl
@[simp] theorem Strand.setP_emptyV (t : Strand) (r : Nat) (v : Pred) : (t.setP r v).emptyV = t.emptyV := by unfold Strand.setP; split <;> rfl
@[simp] theorem Strand.setP_zor (t : Strand) (r : Nat) (v : Pred) : (t.setP r v).zor = t.zor := by unfold Strand.setP; split <;> rfl
@[simp] theorem Strand.setP_pcc (t : Strand) (r : Nat) (v : Pred) : (t.setP r v).pcc = t.pcc := by unfold Strand.setP; split <;> rfl
@[simp] theorem Strand.setP_pc (t : Strand) (r : Nat) (v : Pred) : (t.setP r v).pc = t.pc := by unfold Strand.setP; split <;> rfl
@[simp] theorem Strand.setP_fflags (t : Strand) (r : Nat) (v : Pred) : (t.setP r v).fflags = t.fflags := by unfold Strand.setP; split <;> rfl
@[simp] theorem Strand.setP_frm (t : Strand) (r : Nat) (v : Pred) : (t.setP r v).frm = t.frm := by unfold Strand.setP; split <;> rfl
@[simp] theorem Strand.setP_schk (t : Strand) (r : Nat) (v : Pred) : (t.setP r v).schk = t.schk := by unfold Strand.setP; split <;> rfl
@[simp] theorem Strand.setP_tcause (t : Strand) (r : Nat) (v : Pred) : (t.setP r v).tcause = t.tcause := by unfold Strand.setP; split <;> rfl
@[simp] theorem Strand.setP_tepc (t : Strand) (r : Nat) (v : Pred) : (t.setP r v).tepc = t.tepc := by unfold Strand.setP; split <;> rfl
@[simp] theorem Strand.setP_tval (t : Strand) (r : Nat) (v : Pred) : (t.setP r v).tval = t.tval := by unfold Strand.setP; split <;> rfl
@[simp] theorem Strand.setP_tcap (t : Strand) (r : Nat) (v : Pred) : (t.setP r v).tcap = t.tcap := by unfold Strand.setP; split <;> rfl
@[simp] theorem Strand.setP_bskip (t : Strand) (r : Nat) (v : Pred) : (t.setP r v).bskip = t.bskip := by unfold Strand.setP; split <;> rfl
@[simp] theorem Strand.setP_repdone (t : Strand) (r : Nat) (v : Pred) : (t.setP r v).repdone = t.repdone := by unfold Strand.setP; split <;> rfl
@[simp] theorem Strand.setP_trep (t : Strand) (r : Nat) (v : Pred) : (t.setP r v).trep = t.trep := by unfold Strand.setP; split <;> rfl
@[simp] theorem Strand.setP_bkpt (t : Strand) (r : Nat) (v : Pred) : (t.setP r v).bkpt = t.bkpt := by unfold Strand.setP; split <;> rfl
@[simp] theorem Strand.setP_recipes (t : Strand) (r : Nat) (v : Pred) : (t.setP r v).recipes = t.recipes := by unfold Strand.setP; split <;> rfl
@[simp] theorem Strand.setP_ties (t : Strand) (r : Nat) (v : Pred) : (t.setP r v).ties = t.ties := by unfold Strand.setP; split <;> rfl
@[simp] theorem Strand.setP_dropX (t : Strand) (r : Nat) (v : Pred) : (t.setP r v).dropX = t.dropX := by unfold Strand.setP; split <;> rfl
@[simp] theorem Strand.setP_dropV (t : Strand) (r : Nat) (v : Pred) : (t.setP r v).dropV = t.dropV := by unfold Strand.setP; split <;> rfl
@[simp] theorem Strand.setP_frames (t : Strand) (r : Nat) (v : Pred) : (t.setP r v).frames = t.frames := by unfold Strand.setP; split <;> rfl
@[simp] theorem Strand.setP_status (t : Strand) (r : Nat) (v : Pred) : (t.setP r v).status = t.status := by unfold Strand.setP; split <;> rfl
@[simp] theorem Strand.setP_wait (t : Strand) (r : Nat) (v : Pred) : (t.setP r v).wait = t.wait := by unfold Strand.setP; split <;> rfl
@[simp] theorem Strand.setP_token (t : Strand) (r : Nat) (v : Pred) : (t.setP r v).token = t.token := by unfold Strand.setP; split <;> rfl
@[simp] theorem Strand.setP_hold (t : Strand) (r : Nat) (v : Pred) : (t.setP r v).hold = t.hold := by unfold Strand.setP; split <;> rfl
@[simp] theorem Strand.setP_child (t : Strand) (r : Nat) (v : Pred) : (t.setP r v).child = t.child := by unfold Strand.setP; split <;> rfl
@[simp] theorem Strand.setP_task (t : Strand) (r : Nat) (v : Pred) : (t.setP r v).task = t.task := by unfold Strand.setP; split <;> rfl
@[simp] theorem Strand.setP_endStatus (t : Strand) (r : Nat) (v : Pred) : (t.setP r v).endStatus = t.endStatus := by unfold Strand.setP; split <;> rfl
@[simp] theorem Strand.setP_pend (t : Strand) (r : Nat) (v : Pred) : (t.setP r v).pend = t.pend := by unfold Strand.setP; split <;> rfl
@[simp] theorem Strand.setP_vbusy (t : Strand) (r : Nat) (v : Pred) : (t.setP r v).vbusy = t.vbusy := by unfold Strand.setP; split <;> rfl
@[simp] theorem Strand.setP_nextIssue (t : Strand) (r : Nat) (v : Pred) : (t.setP r v).nextIssue = t.nextIssue := by unfold Strand.setP; split <;> rfl
@[simp] theorem Strand.setP_soPeer (t : Strand) (r : Nat) (v : Pred) : (t.setP r v).soPeer = t.soPeer := by unfold Strand.setP; split <;> rfl
@[simp] theorem Strand.setP_parts (t : Strand) (r : Nat) (v : Pred) : (t.setP r v).parts = t.parts := by unfold Strand.setP; split <;> rfl
@[simp] theorem Strand.setP_rep (t : Strand) (r : Nat) (v : Pred) : (t.setP r v).rep = t.rep := by unfold Strand.setP; split <;> rfl
@[simp] theorem Strand.setP_events (t : Strand) (r : Nat) (v : Pred) : (t.setP r v).events = t.events := by unfold Strand.setP; split <;> rfl
@[simp] theorem Strand.setP_frameSel (t : Strand) (r : Nat) (v : Pred) : (t.setP r v).frameSel = t.frameSel := by unfold Strand.setP; split <;> rfl

/-! setReg and put. -/

@[simp] theorem Strand.setReg_pcc (t : Strand) (r : Nat) (v : RegVal) : (t.setReg r v).pcc = t.pcc := by
  unfold Strand.setReg; split <;> simp
@[simp] theorem Strand.setReg_pc (t : Strand) (r : Nat) (v : RegVal) : (t.setReg r v).pc = t.pc := by
  unfold Strand.setReg; split <;> simp
@[simp] theorem Strand.setReg_fflags (t : Strand) (r : Nat) (v : RegVal) : (t.setReg r v).fflags = t.fflags := by
  unfold Strand.setReg; split <;> simp
@[simp] theorem Strand.setReg_frm (t : Strand) (r : Nat) (v : RegVal) : (t.setReg r v).frm = t.frm := by
  unfold Strand.setReg; split <;> simp
@[simp] theorem Strand.setReg_schk (t : Strand) (r : Nat) (v : RegVal) : (t.setReg r v).schk = t.schk := by
  unfold Strand.setReg; split <;> simp
@[simp] theorem Strand.setReg_tcause (t : Strand) (r : Nat) (v : RegVal) : (t.setReg r v).tcause = t.tcause := by
  unfold Strand.setReg; split <;> simp
@[simp] theorem Strand.setReg_tepc (t : Strand) (r : Nat) (v : RegVal) : (t.setReg r v).tepc = t.tepc := by
  unfold Strand.setReg; split <;> simp
@[simp] theorem Strand.setReg_tval (t : Strand) (r : Nat) (v : RegVal) : (t.setReg r v).tval = t.tval := by
  unfold Strand.setReg; split <;> simp
@[simp] theorem Strand.setReg_tcap (t : Strand) (r : Nat) (v : RegVal) : (t.setReg r v).tcap = t.tcap := by
  unfold Strand.setReg; split <;> simp
@[simp] theorem Strand.setReg_bskip (t : Strand) (r : Nat) (v : RegVal) : (t.setReg r v).bskip = t.bskip := by
  unfold Strand.setReg; split <;> simp
@[simp] theorem Strand.setReg_repdone (t : Strand) (r : Nat) (v : RegVal) : (t.setReg r v).repdone = t.repdone := by
  unfold Strand.setReg; split <;> simp
@[simp] theorem Strand.setReg_trep (t : Strand) (r : Nat) (v : RegVal) : (t.setReg r v).trep = t.trep := by
  unfold Strand.setReg; split <;> simp
@[simp] theorem Strand.setReg_bkpt (t : Strand) (r : Nat) (v : RegVal) : (t.setReg r v).bkpt = t.bkpt := by
  unfold Strand.setReg; split <;> simp
@[simp] theorem Strand.setReg_recipes (t : Strand) (r : Nat) (v : RegVal) : (t.setReg r v).recipes = t.recipes := by
  unfold Strand.setReg; split <;> simp
@[simp] theorem Strand.setReg_ties (t : Strand) (r : Nat) (v : RegVal) : (t.setReg r v).ties = t.ties := by
  unfold Strand.setReg; split <;> simp
@[simp] theorem Strand.setReg_frames (t : Strand) (r : Nat) (v : RegVal) : (t.setReg r v).frames = t.frames := by
  unfold Strand.setReg; split <;> simp
@[simp] theorem Strand.setReg_status (t : Strand) (r : Nat) (v : RegVal) : (t.setReg r v).status = t.status := by
  unfold Strand.setReg; split <;> simp
@[simp] theorem Strand.setReg_wait (t : Strand) (r : Nat) (v : RegVal) : (t.setReg r v).wait = t.wait := by
  unfold Strand.setReg; split <;> simp
@[simp] theorem Strand.setReg_token (t : Strand) (r : Nat) (v : RegVal) : (t.setReg r v).token = t.token := by
  unfold Strand.setReg; split <;> simp
@[simp] theorem Strand.setReg_hold (t : Strand) (r : Nat) (v : RegVal) : (t.setReg r v).hold = t.hold := by
  unfold Strand.setReg; split <;> simp
@[simp] theorem Strand.setReg_child (t : Strand) (r : Nat) (v : RegVal) : (t.setReg r v).child = t.child := by
  unfold Strand.setReg; split <;> simp
@[simp] theorem Strand.setReg_task (t : Strand) (r : Nat) (v : RegVal) : (t.setReg r v).task = t.task := by
  unfold Strand.setReg; split <;> simp
@[simp] theorem Strand.setReg_endStatus (t : Strand) (r : Nat) (v : RegVal) : (t.setReg r v).endStatus = t.endStatus := by
  unfold Strand.setReg; split <;> simp
@[simp] theorem Strand.setReg_pend (t : Strand) (r : Nat) (v : RegVal) : (t.setReg r v).pend = t.pend := by
  unfold Strand.setReg; split <;> simp
@[simp] theorem Strand.setReg_vbusy (t : Strand) (r : Nat) (v : RegVal) : (t.setReg r v).vbusy = t.vbusy := by
  unfold Strand.setReg; split <;> simp
@[simp] theorem Strand.setReg_nextIssue (t : Strand) (r : Nat) (v : RegVal) : (t.setReg r v).nextIssue = t.nextIssue := by
  unfold Strand.setReg; split <;> simp
@[simp] theorem Strand.setReg_soPeer (t : Strand) (r : Nat) (v : RegVal) : (t.setReg r v).soPeer = t.soPeer := by
  unfold Strand.setReg; split <;> simp
@[simp] theorem Strand.setReg_parts (t : Strand) (r : Nat) (v : RegVal) : (t.setReg r v).parts = t.parts := by
  unfold Strand.setReg; split <;> simp
@[simp] theorem Strand.setReg_rep (t : Strand) (r : Nat) (v : RegVal) : (t.setReg r v).rep = t.rep := by
  unfold Strand.setReg; split <;> simp
@[simp] theorem Strand.setReg_events (t : Strand) (r : Nat) (v : RegVal) : (t.setReg r v).events = t.events := by
  unfold Strand.setReg; split <;> simp
@[simp] theorem Strand.setReg_frameSel (t : Strand) (r : Nat) (v : RegVal) : (t.setReg r v).frameSel = t.frameSel := by
  unfold Strand.setReg; split <;> simp
@[simp] theorem Strand.put_pcc (t : Strand) (cycle lat r : Nat) (v : RegVal) : (t.put cycle lat r v).pcc = t.pcc := by
  unfold Strand.put; split
  · simp
  · split <;> rfl
@[simp] theorem Strand.put_pc (t : Strand) (cycle lat r : Nat) (v : RegVal) : (t.put cycle lat r v).pc = t.pc := by
  unfold Strand.put; split
  · simp
  · split <;> rfl
@[simp] theorem Strand.put_fflags (t : Strand) (cycle lat r : Nat) (v : RegVal) : (t.put cycle lat r v).fflags = t.fflags := by
  unfold Strand.put; split
  · simp
  · split <;> rfl
@[simp] theorem Strand.put_frm (t : Strand) (cycle lat r : Nat) (v : RegVal) : (t.put cycle lat r v).frm = t.frm := by
  unfold Strand.put; split
  · simp
  · split <;> rfl
@[simp] theorem Strand.put_schk (t : Strand) (cycle lat r : Nat) (v : RegVal) : (t.put cycle lat r v).schk = t.schk := by
  unfold Strand.put; split
  · simp
  · split <;> rfl
@[simp] theorem Strand.put_tcause (t : Strand) (cycle lat r : Nat) (v : RegVal) : (t.put cycle lat r v).tcause = t.tcause := by
  unfold Strand.put; split
  · simp
  · split <;> rfl
@[simp] theorem Strand.put_tepc (t : Strand) (cycle lat r : Nat) (v : RegVal) : (t.put cycle lat r v).tepc = t.tepc := by
  unfold Strand.put; split
  · simp
  · split <;> rfl
@[simp] theorem Strand.put_tval (t : Strand) (cycle lat r : Nat) (v : RegVal) : (t.put cycle lat r v).tval = t.tval := by
  unfold Strand.put; split
  · simp
  · split <;> rfl
@[simp] theorem Strand.put_tcap (t : Strand) (cycle lat r : Nat) (v : RegVal) : (t.put cycle lat r v).tcap = t.tcap := by
  unfold Strand.put; split
  · simp
  · split <;> rfl
@[simp] theorem Strand.put_bskip (t : Strand) (cycle lat r : Nat) (v : RegVal) : (t.put cycle lat r v).bskip = t.bskip := by
  unfold Strand.put; split
  · simp
  · split <;> rfl
@[simp] theorem Strand.put_repdone (t : Strand) (cycle lat r : Nat) (v : RegVal) : (t.put cycle lat r v).repdone = t.repdone := by
  unfold Strand.put; split
  · simp
  · split <;> rfl
@[simp] theorem Strand.put_trep (t : Strand) (cycle lat r : Nat) (v : RegVal) : (t.put cycle lat r v).trep = t.trep := by
  unfold Strand.put; split
  · simp
  · split <;> rfl
@[simp] theorem Strand.put_bkpt (t : Strand) (cycle lat r : Nat) (v : RegVal) : (t.put cycle lat r v).bkpt = t.bkpt := by
  unfold Strand.put; split
  · simp
  · split <;> rfl
@[simp] theorem Strand.put_recipes (t : Strand) (cycle lat r : Nat) (v : RegVal) : (t.put cycle lat r v).recipes = t.recipes := by
  unfold Strand.put; split
  · simp
  · split <;> rfl
@[simp] theorem Strand.put_ties (t : Strand) (cycle lat r : Nat) (v : RegVal) : (t.put cycle lat r v).ties = t.ties := by
  unfold Strand.put; split
  · simp
  · split <;> rfl
@[simp] theorem Strand.put_frames (t : Strand) (cycle lat r : Nat) (v : RegVal) : (t.put cycle lat r v).frames = t.frames := by
  unfold Strand.put; split
  · simp
  · split <;> rfl
@[simp] theorem Strand.put_status (t : Strand) (cycle lat r : Nat) (v : RegVal) : (t.put cycle lat r v).status = t.status := by
  unfold Strand.put; split
  · simp
  · split <;> rfl
@[simp] theorem Strand.put_wait (t : Strand) (cycle lat r : Nat) (v : RegVal) : (t.put cycle lat r v).wait = t.wait := by
  unfold Strand.put; split
  · simp
  · split <;> rfl
@[simp] theorem Strand.put_token (t : Strand) (cycle lat r : Nat) (v : RegVal) : (t.put cycle lat r v).token = t.token := by
  unfold Strand.put; split
  · simp
  · split <;> rfl
@[simp] theorem Strand.put_hold (t : Strand) (cycle lat r : Nat) (v : RegVal) : (t.put cycle lat r v).hold = t.hold := by
  unfold Strand.put; split
  · simp
  · split <;> rfl
@[simp] theorem Strand.put_child (t : Strand) (cycle lat r : Nat) (v : RegVal) : (t.put cycle lat r v).child = t.child := by
  unfold Strand.put; split
  · simp
  · split <;> rfl
@[simp] theorem Strand.put_task (t : Strand) (cycle lat r : Nat) (v : RegVal) : (t.put cycle lat r v).task = t.task := by
  unfold Strand.put; split
  · simp
  · split <;> rfl
@[simp] theorem Strand.put_endStatus (t : Strand) (cycle lat r : Nat) (v : RegVal) : (t.put cycle lat r v).endStatus = t.endStatus := by
  unfold Strand.put; split
  · simp
  · split <;> rfl
@[simp] theorem Strand.put_vbusy (t : Strand) (cycle lat r : Nat) (v : RegVal) : (t.put cycle lat r v).vbusy = t.vbusy := by
  unfold Strand.put; split
  · simp
  · split <;> rfl
@[simp] theorem Strand.put_nextIssue (t : Strand) (cycle lat r : Nat) (v : RegVal) : (t.put cycle lat r v).nextIssue = t.nextIssue := by
  unfold Strand.put; split
  · simp
  · split <;> rfl
@[simp] theorem Strand.put_soPeer (t : Strand) (cycle lat r : Nat) (v : RegVal) : (t.put cycle lat r v).soPeer = t.soPeer := by
  unfold Strand.put; split
  · simp
  · split <;> rfl
@[simp] theorem Strand.put_parts (t : Strand) (cycle lat r : Nat) (v : RegVal) : (t.put cycle lat r v).parts = t.parts := by
  unfold Strand.put; split
  · simp
  · split <;> rfl
@[simp] theorem Strand.put_rep (t : Strand) (cycle lat r : Nat) (v : RegVal) : (t.put cycle lat r v).rep = t.rep := by
  unfold Strand.put; split
  · simp
  · split <;> rfl
@[simp] theorem Strand.put_events (t : Strand) (cycle lat r : Nat) (v : RegVal) : (t.put cycle lat r v).events = t.events := by
  unfold Strand.put; split
  · simp
  · split <;> rfl
@[simp] theorem Strand.put_frameSel (t : Strand) (cycle lat r : Nat) (v : RegVal) : (t.put cycle lat r v).frameSel = t.frameSel := by
  unfold Strand.put; split
  · simp
  · split <;> rfl

/-! Ties. -/

@[simp] theorem Strand.untie_x (t : Strand) (r : RegRef) : (t.untie r).x = t.x := by
  unfold Strand.untie; split <;> rfl
@[simp] theorem Strand.untie_c (t : Strand) (r : RegRef) : (t.untie r).c = t.c := by
  unfold Strand.untie; split <;> rfl
@[simp] theorem Strand.untie_v (t : Strand) (r : RegRef) : (t.untie r).v = t.v := by
  unfold Strand.untie; split <;> rfl
@[simp] theorem Strand.untie_p (t : Strand) (r : RegRef) : (t.untie r).p = t.p := by
  unfold Strand.untie; split <;> rfl
@[simp] theorem Strand.untie_emptyX (t : Strand) (r : RegRef) : (t.untie r).emptyX = t.emptyX := by
  unfold Strand.untie; split <;> rfl
@[simp] theorem Strand.untie_emptyC (t : Strand) (r : RegRef) : (t.untie r).emptyC = t.emptyC := by
  unfold Strand.untie; split <;> rfl
@[simp] theorem Strand.untie_emptyV (t : Strand) (r : RegRef) : (t.untie r).emptyV = t.emptyV := by
  unfold Strand.untie; split <;> rfl
@[simp] theorem Strand.untie_zor (t : Strand) (r : RegRef) : (t.untie r).zor = t.zor := by
  unfold Strand.untie; split <;> rfl
@[simp] theorem Strand.untie_pcc (t : Strand) (r : RegRef) : (t.untie r).pcc = t.pcc := by
  unfold Strand.untie; split <;> rfl
@[simp] theorem Strand.untie_pc (t : Strand) (r : RegRef) : (t.untie r).pc = t.pc := by
  unfold Strand.untie; split <;> rfl
@[simp] theorem Strand.untie_fflags (t : Strand) (r : RegRef) : (t.untie r).fflags = t.fflags := by
  unfold Strand.untie; split <;> rfl
@[simp] theorem Strand.untie_frm (t : Strand) (r : RegRef) : (t.untie r).frm = t.frm := by
  unfold Strand.untie; split <;> rfl
@[simp] theorem Strand.untie_schk (t : Strand) (r : RegRef) : (t.untie r).schk = t.schk := by
  unfold Strand.untie; split <;> rfl
@[simp] theorem Strand.untie_tcause (t : Strand) (r : RegRef) : (t.untie r).tcause = t.tcause := by
  unfold Strand.untie; split <;> rfl
@[simp] theorem Strand.untie_tepc (t : Strand) (r : RegRef) : (t.untie r).tepc = t.tepc := by
  unfold Strand.untie; split <;> rfl
@[simp] theorem Strand.untie_tval (t : Strand) (r : RegRef) : (t.untie r).tval = t.tval := by
  unfold Strand.untie; split <;> rfl
@[simp] theorem Strand.untie_tcap (t : Strand) (r : RegRef) : (t.untie r).tcap = t.tcap := by
  unfold Strand.untie; split <;> rfl
@[simp] theorem Strand.untie_bskip (t : Strand) (r : RegRef) : (t.untie r).bskip = t.bskip := by
  unfold Strand.untie; split <;> rfl
@[simp] theorem Strand.untie_repdone (t : Strand) (r : RegRef) : (t.untie r).repdone = t.repdone := by
  unfold Strand.untie; split <;> rfl
@[simp] theorem Strand.untie_trep (t : Strand) (r : RegRef) : (t.untie r).trep = t.trep := by
  unfold Strand.untie; split <;> rfl
@[simp] theorem Strand.untie_bkpt (t : Strand) (r : RegRef) : (t.untie r).bkpt = t.bkpt := by
  unfold Strand.untie; split <;> rfl
@[simp] theorem Strand.untie_recipes (t : Strand) (r : RegRef) : (t.untie r).recipes = t.recipes := by
  unfold Strand.untie; split <;> rfl
@[simp] theorem Strand.untie_frames (t : Strand) (r : RegRef) : (t.untie r).frames = t.frames := by
  unfold Strand.untie; split <;> rfl
@[simp] theorem Strand.untie_status (t : Strand) (r : RegRef) : (t.untie r).status = t.status := by
  unfold Strand.untie; split <;> rfl
@[simp] theorem Strand.untie_wait (t : Strand) (r : RegRef) : (t.untie r).wait = t.wait := by
  unfold Strand.untie; split <;> rfl
@[simp] theorem Strand.untie_token (t : Strand) (r : RegRef) : (t.untie r).token = t.token := by
  unfold Strand.untie; split <;> rfl
@[simp] theorem Strand.untie_hold (t : Strand) (r : RegRef) : (t.untie r).hold = t.hold := by
  unfold Strand.untie; split <;> rfl
@[simp] theorem Strand.untie_child (t : Strand) (r : RegRef) : (t.untie r).child = t.child := by
  unfold Strand.untie; split <;> rfl
@[simp] theorem Strand.untie_task (t : Strand) (r : RegRef) : (t.untie r).task = t.task := by
  unfold Strand.untie; split <;> rfl
@[simp] theorem Strand.untie_endStatus (t : Strand) (r : RegRef) : (t.untie r).endStatus = t.endStatus := by
  unfold Strand.untie; split <;> rfl
@[simp] theorem Strand.untie_pend (t : Strand) (r : RegRef) : (t.untie r).pend = t.pend := by
  unfold Strand.untie; split <;> rfl
@[simp] theorem Strand.untie_vbusy (t : Strand) (r : RegRef) : (t.untie r).vbusy = t.vbusy := by
  unfold Strand.untie; split <;> rfl
@[simp] theorem Strand.untie_nextIssue (t : Strand) (r : RegRef) : (t.untie r).nextIssue = t.nextIssue := by
  unfold Strand.untie; split <;> rfl
@[simp] theorem Strand.untie_soPeer (t : Strand) (r : RegRef) : (t.untie r).soPeer = t.soPeer := by
  unfold Strand.untie; split <;> rfl
@[simp] theorem Strand.untie_parts (t : Strand) (r : RegRef) : (t.untie r).parts = t.parts := by
  unfold Strand.untie; split <;> rfl
@[simp] theorem Strand.untie_rep (t : Strand) (r : RegRef) : (t.untie r).rep = t.rep := by
  unfold Strand.untie; split <;> rfl
@[simp] theorem Strand.untie_events (t : Strand) (r : RegRef) : (t.untie r).events = t.events := by
  unfold Strand.untie; split <;> rfl
@[simp] theorem Strand.untie_frameSel (t : Strand) (r : RegRef) : (t.untie r).frameSel = t.frameSel := by
  unfold Strand.untie; split <;> rfl
theorem Strand.foldl_untie {α : Type} (f : Strand → α) (h : ∀ t r, f (Strand.untie t r) = f t) (rs : List RegRef) (t : Strand) :
    f (rs.foldl Strand.untie t) = f t := by
  induction rs generalizing t with
  | nil => rfl
  | cons r rest ih => rw [List.foldl_cons, ih, h]
theorem Strand.noteWrite_of {α : Type} (f : Strand → α) (h : ∀ t r, f (Strand.untie t r) = f t) (t : Strand) (r : RegRef) :
    f (t.noteWrite r) = f t := by
  unfold Strand.noteWrite
  split
  · rfl
  · rw [Strand.foldl_untie f h, h]
theorem Strand.foldl_noteWrite {α : Type} (f : Strand → α) (h : ∀ t r, f (Strand.untie t r) = f t) (rs : List RegRef) (t : Strand) :
    f (rs.foldl Strand.noteWrite t) = f t := by
  induction rs generalizing t with
  | nil => rfl
  | cons r rest ih => rw [List.foldl_cons, ih, Strand.noteWrite_of f h]
@[simp] theorem Strand.noteWrite_x (t : Strand) (r : RegRef) : (t.noteWrite r).x = t.x :=
  Strand.noteWrite_of (·.x) (fun t r => Strand.untie_x t r) t r
@[simp] theorem Strand.noteWrite_c (t : Strand) (r : RegRef) : (t.noteWrite r).c = t.c :=
  Strand.noteWrite_of (·.c) (fun t r => Strand.untie_c t r) t r
@[simp] theorem Strand.noteWrite_v (t : Strand) (r : RegRef) : (t.noteWrite r).v = t.v :=
  Strand.noteWrite_of (·.v) (fun t r => Strand.untie_v t r) t r
@[simp] theorem Strand.noteWrite_p (t : Strand) (r : RegRef) : (t.noteWrite r).p = t.p :=
  Strand.noteWrite_of (·.p) (fun t r => Strand.untie_p t r) t r
@[simp] theorem Strand.noteWrite_emptyX (t : Strand) (r : RegRef) : (t.noteWrite r).emptyX = t.emptyX :=
  Strand.noteWrite_of (·.emptyX) (fun t r => Strand.untie_emptyX t r) t r
@[simp] theorem Strand.noteWrite_emptyC (t : Strand) (r : RegRef) : (t.noteWrite r).emptyC = t.emptyC :=
  Strand.noteWrite_of (·.emptyC) (fun t r => Strand.untie_emptyC t r) t r
@[simp] theorem Strand.noteWrite_emptyV (t : Strand) (r : RegRef) : (t.noteWrite r).emptyV = t.emptyV :=
  Strand.noteWrite_of (·.emptyV) (fun t r => Strand.untie_emptyV t r) t r
@[simp] theorem Strand.noteWrite_zor (t : Strand) (r : RegRef) : (t.noteWrite r).zor = t.zor :=
  Strand.noteWrite_of (·.zor) (fun t r => Strand.untie_zor t r) t r
@[simp] theorem Strand.noteWrite_pcc (t : Strand) (r : RegRef) : (t.noteWrite r).pcc = t.pcc :=
  Strand.noteWrite_of (·.pcc) (fun t r => Strand.untie_pcc t r) t r
@[simp] theorem Strand.noteWrite_pc (t : Strand) (r : RegRef) : (t.noteWrite r).pc = t.pc :=
  Strand.noteWrite_of (·.pc) (fun t r => Strand.untie_pc t r) t r
@[simp] theorem Strand.noteWrite_fflags (t : Strand) (r : RegRef) : (t.noteWrite r).fflags = t.fflags :=
  Strand.noteWrite_of (·.fflags) (fun t r => Strand.untie_fflags t r) t r
@[simp] theorem Strand.noteWrite_frm (t : Strand) (r : RegRef) : (t.noteWrite r).frm = t.frm :=
  Strand.noteWrite_of (·.frm) (fun t r => Strand.untie_frm t r) t r
@[simp] theorem Strand.noteWrite_schk (t : Strand) (r : RegRef) : (t.noteWrite r).schk = t.schk :=
  Strand.noteWrite_of (·.schk) (fun t r => Strand.untie_schk t r) t r
@[simp] theorem Strand.noteWrite_tcause (t : Strand) (r : RegRef) : (t.noteWrite r).tcause = t.tcause :=
  Strand.noteWrite_of (·.tcause) (fun t r => Strand.untie_tcause t r) t r
@[simp] theorem Strand.noteWrite_tepc (t : Strand) (r : RegRef) : (t.noteWrite r).tepc = t.tepc :=
  Strand.noteWrite_of (·.tepc) (fun t r => Strand.untie_tepc t r) t r
@[simp] theorem Strand.noteWrite_tval (t : Strand) (r : RegRef) : (t.noteWrite r).tval = t.tval :=
  Strand.noteWrite_of (·.tval) (fun t r => Strand.untie_tval t r) t r
@[simp] theorem Strand.noteWrite_tcap (t : Strand) (r : RegRef) : (t.noteWrite r).tcap = t.tcap :=
  Strand.noteWrite_of (·.tcap) (fun t r => Strand.untie_tcap t r) t r
@[simp] theorem Strand.noteWrite_bskip (t : Strand) (r : RegRef) : (t.noteWrite r).bskip = t.bskip :=
  Strand.noteWrite_of (·.bskip) (fun t r => Strand.untie_bskip t r) t r
@[simp] theorem Strand.noteWrite_repdone (t : Strand) (r : RegRef) : (t.noteWrite r).repdone = t.repdone :=
  Strand.noteWrite_of (·.repdone) (fun t r => Strand.untie_repdone t r) t r
@[simp] theorem Strand.noteWrite_trep (t : Strand) (r : RegRef) : (t.noteWrite r).trep = t.trep :=
  Strand.noteWrite_of (·.trep) (fun t r => Strand.untie_trep t r) t r
@[simp] theorem Strand.noteWrite_bkpt (t : Strand) (r : RegRef) : (t.noteWrite r).bkpt = t.bkpt :=
  Strand.noteWrite_of (·.bkpt) (fun t r => Strand.untie_bkpt t r) t r
@[simp] theorem Strand.noteWrite_recipes (t : Strand) (r : RegRef) : (t.noteWrite r).recipes = t.recipes :=
  Strand.noteWrite_of (·.recipes) (fun t r => Strand.untie_recipes t r) t r
@[simp] theorem Strand.noteWrite_frames (t : Strand) (r : RegRef) : (t.noteWrite r).frames = t.frames :=
  Strand.noteWrite_of (·.frames) (fun t r => Strand.untie_frames t r) t r
@[simp] theorem Strand.noteWrite_status (t : Strand) (r : RegRef) : (t.noteWrite r).status = t.status :=
  Strand.noteWrite_of (·.status) (fun t r => Strand.untie_status t r) t r
@[simp] theorem Strand.noteWrite_wait (t : Strand) (r : RegRef) : (t.noteWrite r).wait = t.wait :=
  Strand.noteWrite_of (·.wait) (fun t r => Strand.untie_wait t r) t r
@[simp] theorem Strand.noteWrite_token (t : Strand) (r : RegRef) : (t.noteWrite r).token = t.token :=
  Strand.noteWrite_of (·.token) (fun t r => Strand.untie_token t r) t r
@[simp] theorem Strand.noteWrite_hold (t : Strand) (r : RegRef) : (t.noteWrite r).hold = t.hold :=
  Strand.noteWrite_of (·.hold) (fun t r => Strand.untie_hold t r) t r
@[simp] theorem Strand.noteWrite_child (t : Strand) (r : RegRef) : (t.noteWrite r).child = t.child :=
  Strand.noteWrite_of (·.child) (fun t r => Strand.untie_child t r) t r
@[simp] theorem Strand.noteWrite_task (t : Strand) (r : RegRef) : (t.noteWrite r).task = t.task :=
  Strand.noteWrite_of (·.task) (fun t r => Strand.untie_task t r) t r
@[simp] theorem Strand.noteWrite_endStatus (t : Strand) (r : RegRef) : (t.noteWrite r).endStatus = t.endStatus :=
  Strand.noteWrite_of (·.endStatus) (fun t r => Strand.untie_endStatus t r) t r
@[simp] theorem Strand.noteWrite_pend (t : Strand) (r : RegRef) : (t.noteWrite r).pend = t.pend :=
  Strand.noteWrite_of (·.pend) (fun t r => Strand.untie_pend t r) t r
@[simp] theorem Strand.noteWrite_vbusy (t : Strand) (r : RegRef) : (t.noteWrite r).vbusy = t.vbusy :=
  Strand.noteWrite_of (·.vbusy) (fun t r => Strand.untie_vbusy t r) t r
@[simp] theorem Strand.noteWrite_nextIssue (t : Strand) (r : RegRef) : (t.noteWrite r).nextIssue = t.nextIssue :=
  Strand.noteWrite_of (·.nextIssue) (fun t r => Strand.untie_nextIssue t r) t r
@[simp] theorem Strand.noteWrite_soPeer (t : Strand) (r : RegRef) : (t.noteWrite r).soPeer = t.soPeer :=
  Strand.noteWrite_of (·.soPeer) (fun t r => Strand.untie_soPeer t r) t r
@[simp] theorem Strand.noteWrite_parts (t : Strand) (r : RegRef) : (t.noteWrite r).parts = t.parts :=
  Strand.noteWrite_of (·.parts) (fun t r => Strand.untie_parts t r) t r
@[simp] theorem Strand.noteWrite_rep (t : Strand) (r : RegRef) : (t.noteWrite r).rep = t.rep :=
  Strand.noteWrite_of (·.rep) (fun t r => Strand.untie_rep t r) t r
@[simp] theorem Strand.noteWrite_events (t : Strand) (r : RegRef) : (t.noteWrite r).events = t.events :=
  Strand.noteWrite_of (·.events) (fun t r => Strand.untie_events t r) t r
@[simp] theorem Strand.noteWrite_frameSel (t : Strand) (r : RegRef) : (t.noteWrite r).frameSel = t.frameSel :=
  Strand.noteWrite_of (·.frameSel) (fun t r => Strand.untie_frameSel t r) t r

/-! What issue itself changes. -/

@[simp] theorem Strand.syncRead_x (t : Strand) (r : RegRef) : (t.syncRead r).x = t.x := by
  unfold Strand.syncRead; repeat' split
  all_goals simp
@[simp] theorem Strand.syncRead_c (t : Strand) (r : RegRef) : (t.syncRead r).c = t.c := by
  unfold Strand.syncRead; repeat' split
  all_goals simp
@[simp] theorem Strand.syncRead_v (t : Strand) (r : RegRef) : (t.syncRead r).v = t.v := by
  unfold Strand.syncRead; repeat' split
  all_goals simp
@[simp] theorem Strand.syncRead_p (t : Strand) (r : RegRef) : (t.syncRead r).p = t.p := by
  unfold Strand.syncRead; repeat' split
  all_goals simp
@[simp] theorem Strand.syncRead_zor (t : Strand) (r : RegRef) : (t.syncRead r).zor = t.zor := by
  unfold Strand.syncRead; repeat' split
  all_goals simp
@[simp] theorem Strand.syncRead_pcc (t : Strand) (r : RegRef) : (t.syncRead r).pcc = t.pcc := by
  unfold Strand.syncRead; repeat' split
  all_goals simp
@[simp] theorem Strand.syncRead_pc (t : Strand) (r : RegRef) : (t.syncRead r).pc = t.pc := by
  unfold Strand.syncRead; repeat' split
  all_goals simp
@[simp] theorem Strand.syncRead_fflags (t : Strand) (r : RegRef) : (t.syncRead r).fflags = t.fflags := by
  unfold Strand.syncRead; repeat' split
  all_goals simp
@[simp] theorem Strand.syncRead_frm (t : Strand) (r : RegRef) : (t.syncRead r).frm = t.frm := by
  unfold Strand.syncRead; repeat' split
  all_goals simp
@[simp] theorem Strand.syncRead_schk (t : Strand) (r : RegRef) : (t.syncRead r).schk = t.schk := by
  unfold Strand.syncRead; repeat' split
  all_goals simp
@[simp] theorem Strand.syncRead_tcause (t : Strand) (r : RegRef) : (t.syncRead r).tcause = t.tcause := by
  unfold Strand.syncRead; repeat' split
  all_goals simp
@[simp] theorem Strand.syncRead_tepc (t : Strand) (r : RegRef) : (t.syncRead r).tepc = t.tepc := by
  unfold Strand.syncRead; repeat' split
  all_goals simp
@[simp] theorem Strand.syncRead_tval (t : Strand) (r : RegRef) : (t.syncRead r).tval = t.tval := by
  unfold Strand.syncRead; repeat' split
  all_goals simp
@[simp] theorem Strand.syncRead_tcap (t : Strand) (r : RegRef) : (t.syncRead r).tcap = t.tcap := by
  unfold Strand.syncRead; repeat' split
  all_goals simp
@[simp] theorem Strand.syncRead_bskip (t : Strand) (r : RegRef) : (t.syncRead r).bskip = t.bskip := by
  unfold Strand.syncRead; repeat' split
  all_goals simp
@[simp] theorem Strand.syncRead_repdone (t : Strand) (r : RegRef) : (t.syncRead r).repdone = t.repdone := by
  unfold Strand.syncRead; repeat' split
  all_goals simp
@[simp] theorem Strand.syncRead_trep (t : Strand) (r : RegRef) : (t.syncRead r).trep = t.trep := by
  unfold Strand.syncRead; repeat' split
  all_goals simp
@[simp] theorem Strand.syncRead_bkpt (t : Strand) (r : RegRef) : (t.syncRead r).bkpt = t.bkpt := by
  unfold Strand.syncRead; repeat' split
  all_goals simp
@[simp] theorem Strand.syncRead_recipes (t : Strand) (r : RegRef) : (t.syncRead r).recipes = t.recipes := by
  unfold Strand.syncRead; repeat' split
  all_goals simp
@[simp] theorem Strand.syncRead_frames (t : Strand) (r : RegRef) : (t.syncRead r).frames = t.frames := by
  unfold Strand.syncRead; repeat' split
  all_goals simp
@[simp] theorem Strand.syncRead_status (t : Strand) (r : RegRef) : (t.syncRead r).status = t.status := by
  unfold Strand.syncRead; repeat' split
  all_goals simp
@[simp] theorem Strand.syncRead_wait (t : Strand) (r : RegRef) : (t.syncRead r).wait = t.wait := by
  unfold Strand.syncRead; repeat' split
  all_goals simp
@[simp] theorem Strand.syncRead_token (t : Strand) (r : RegRef) : (t.syncRead r).token = t.token := by
  unfold Strand.syncRead; repeat' split
  all_goals simp
@[simp] theorem Strand.syncRead_hold (t : Strand) (r : RegRef) : (t.syncRead r).hold = t.hold := by
  unfold Strand.syncRead; repeat' split
  all_goals simp
@[simp] theorem Strand.syncRead_child (t : Strand) (r : RegRef) : (t.syncRead r).child = t.child := by
  unfold Strand.syncRead; repeat' split
  all_goals simp
@[simp] theorem Strand.syncRead_task (t : Strand) (r : RegRef) : (t.syncRead r).task = t.task := by
  unfold Strand.syncRead; repeat' split
  all_goals simp
@[simp] theorem Strand.syncRead_endStatus (t : Strand) (r : RegRef) : (t.syncRead r).endStatus = t.endStatus := by
  unfold Strand.syncRead; repeat' split
  all_goals simp
@[simp] theorem Strand.syncRead_pend (t : Strand) (r : RegRef) : (t.syncRead r).pend = t.pend := by
  unfold Strand.syncRead; repeat' split
  all_goals simp
@[simp] theorem Strand.syncRead_vbusy (t : Strand) (r : RegRef) : (t.syncRead r).vbusy = t.vbusy := by
  unfold Strand.syncRead; repeat' split
  all_goals simp
@[simp] theorem Strand.syncRead_nextIssue (t : Strand) (r : RegRef) : (t.syncRead r).nextIssue = t.nextIssue := by
  unfold Strand.syncRead; repeat' split
  all_goals simp
@[simp] theorem Strand.syncRead_soPeer (t : Strand) (r : RegRef) : (t.syncRead r).soPeer = t.soPeer := by
  unfold Strand.syncRead; repeat' split
  all_goals simp
@[simp] theorem Strand.syncRead_parts (t : Strand) (r : RegRef) : (t.syncRead r).parts = t.parts := by
  unfold Strand.syncRead; repeat' split
  all_goals simp
@[simp] theorem Strand.syncRead_rep (t : Strand) (r : RegRef) : (t.syncRead r).rep = t.rep := by
  unfold Strand.syncRead; repeat' split
  all_goals simp
@[simp] theorem Strand.syncRead_events (t : Strand) (r : RegRef) : (t.syncRead r).events = t.events := by
  unfold Strand.syncRead; repeat' split
  all_goals simp
@[simp] theorem Strand.syncRead_frameSel (t : Strand) (r : RegRef) : (t.syncRead r).frameSel = t.frameSel := by
  unfold Strand.syncRead; repeat' split
  all_goals simp
@[simp] theorem Strand.begin_x (t : Strand) (b : Body) : (t.begin b).x = t.x := by
  unfold Strand.begin
  rw [Strand.foldl_noteWrite (·.x) (fun t r => Strand.untie_x t r)]
  split <;> simp
@[simp] theorem Strand.begin_c (t : Strand) (b : Body) : (t.begin b).c = t.c := by
  unfold Strand.begin
  rw [Strand.foldl_noteWrite (·.c) (fun t r => Strand.untie_c t r)]
  split <;> simp
@[simp] theorem Strand.begin_v (t : Strand) (b : Body) : (t.begin b).v = t.v := by
  unfold Strand.begin
  rw [Strand.foldl_noteWrite (·.v) (fun t r => Strand.untie_v t r)]
  split <;> simp
@[simp] theorem Strand.begin_p (t : Strand) (b : Body) : (t.begin b).p = t.p := by
  unfold Strand.begin
  rw [Strand.foldl_noteWrite (·.p) (fun t r => Strand.untie_p t r)]
  split <;> simp
@[simp] theorem Strand.begin_zor (t : Strand) (b : Body) : (t.begin b).zor = t.zor := by
  unfold Strand.begin
  rw [Strand.foldl_noteWrite (·.zor) (fun t r => Strand.untie_zor t r)]
  split <;> simp
@[simp] theorem Strand.begin_pcc (t : Strand) (b : Body) : (t.begin b).pcc = t.pcc := by
  unfold Strand.begin
  rw [Strand.foldl_noteWrite (·.pcc) (fun t r => Strand.untie_pcc t r)]
  split <;> simp
@[simp] theorem Strand.begin_pc (t : Strand) (b : Body) : (t.begin b).pc = t.pc := by
  unfold Strand.begin
  rw [Strand.foldl_noteWrite (·.pc) (fun t r => Strand.untie_pc t r)]
  split <;> simp
@[simp] theorem Strand.begin_fflags (t : Strand) (b : Body) : (t.begin b).fflags = t.fflags := by
  unfold Strand.begin
  rw [Strand.foldl_noteWrite (·.fflags) (fun t r => Strand.untie_fflags t r)]
  split <;> simp
@[simp] theorem Strand.begin_frm (t : Strand) (b : Body) : (t.begin b).frm = t.frm := by
  unfold Strand.begin
  rw [Strand.foldl_noteWrite (·.frm) (fun t r => Strand.untie_frm t r)]
  split <;> simp
@[simp] theorem Strand.begin_schk (t : Strand) (b : Body) : (t.begin b).schk = t.schk := by
  unfold Strand.begin
  rw [Strand.foldl_noteWrite (·.schk) (fun t r => Strand.untie_schk t r)]
  split <;> simp
@[simp] theorem Strand.begin_tcause (t : Strand) (b : Body) : (t.begin b).tcause = t.tcause := by
  unfold Strand.begin
  rw [Strand.foldl_noteWrite (·.tcause) (fun t r => Strand.untie_tcause t r)]
  split <;> simp
@[simp] theorem Strand.begin_tepc (t : Strand) (b : Body) : (t.begin b).tepc = t.tepc := by
  unfold Strand.begin
  rw [Strand.foldl_noteWrite (·.tepc) (fun t r => Strand.untie_tepc t r)]
  split <;> simp
@[simp] theorem Strand.begin_tval (t : Strand) (b : Body) : (t.begin b).tval = t.tval := by
  unfold Strand.begin
  rw [Strand.foldl_noteWrite (·.tval) (fun t r => Strand.untie_tval t r)]
  split <;> simp
@[simp] theorem Strand.begin_tcap (t : Strand) (b : Body) : (t.begin b).tcap = t.tcap := by
  unfold Strand.begin
  rw [Strand.foldl_noteWrite (·.tcap) (fun t r => Strand.untie_tcap t r)]
  split <;> simp
@[simp] theorem Strand.begin_repdone (t : Strand) (b : Body) : (t.begin b).repdone = t.repdone := by
  unfold Strand.begin
  rw [Strand.foldl_noteWrite (·.repdone) (fun t r => Strand.untie_repdone t r)]
  split <;> simp
@[simp] theorem Strand.begin_trep (t : Strand) (b : Body) : (t.begin b).trep = t.trep := by
  unfold Strand.begin
  rw [Strand.foldl_noteWrite (·.trep) (fun t r => Strand.untie_trep t r)]
  split <;> simp
@[simp] theorem Strand.begin_bkpt (t : Strand) (b : Body) : (t.begin b).bkpt = t.bkpt := by
  unfold Strand.begin
  rw [Strand.foldl_noteWrite (·.bkpt) (fun t r => Strand.untie_bkpt t r)]
  split <;> simp
@[simp] theorem Strand.begin_recipes (t : Strand) (b : Body) : (t.begin b).recipes = t.recipes := by
  unfold Strand.begin
  rw [Strand.foldl_noteWrite (·.recipes) (fun t r => Strand.untie_recipes t r)]
  split <;> simp
@[simp] theorem Strand.begin_frames (t : Strand) (b : Body) : (t.begin b).frames = t.frames := by
  unfold Strand.begin
  rw [Strand.foldl_noteWrite (·.frames) (fun t r => Strand.untie_frames t r)]
  split <;> simp
@[simp] theorem Strand.begin_status (t : Strand) (b : Body) : (t.begin b).status = t.status := by
  unfold Strand.begin
  rw [Strand.foldl_noteWrite (·.status) (fun t r => Strand.untie_status t r)]
  split <;> simp
@[simp] theorem Strand.begin_wait (t : Strand) (b : Body) : (t.begin b).wait = t.wait := by
  unfold Strand.begin
  rw [Strand.foldl_noteWrite (·.wait) (fun t r => Strand.untie_wait t r)]
  split <;> simp
@[simp] theorem Strand.begin_token (t : Strand) (b : Body) : (t.begin b).token = t.token := by
  unfold Strand.begin
  rw [Strand.foldl_noteWrite (·.token) (fun t r => Strand.untie_token t r)]
  split <;> simp
@[simp] theorem Strand.begin_hold (t : Strand) (b : Body) : (t.begin b).hold = t.hold := by
  unfold Strand.begin
  rw [Strand.foldl_noteWrite (·.hold) (fun t r => Strand.untie_hold t r)]
  split <;> simp
@[simp] theorem Strand.begin_child (t : Strand) (b : Body) : (t.begin b).child = t.child := by
  unfold Strand.begin
  rw [Strand.foldl_noteWrite (·.child) (fun t r => Strand.untie_child t r)]
  split <;> simp
@[simp] theorem Strand.begin_task (t : Strand) (b : Body) : (t.begin b).task = t.task := by
  unfold Strand.begin
  rw [Strand.foldl_noteWrite (·.task) (fun t r => Strand.untie_task t r)]
  split <;> simp
@[simp] theorem Strand.begin_endStatus (t : Strand) (b : Body) : (t.begin b).endStatus = t.endStatus := by
  unfold Strand.begin
  rw [Strand.foldl_noteWrite (·.endStatus) (fun t r => Strand.untie_endStatus t r)]
  split <;> simp
@[simp] theorem Strand.begin_pend (t : Strand) (b : Body) : (t.begin b).pend = t.pend := by
  unfold Strand.begin
  rw [Strand.foldl_noteWrite (·.pend) (fun t r => Strand.untie_pend t r)]
  split <;> simp
@[simp] theorem Strand.begin_vbusy (t : Strand) (b : Body) : (t.begin b).vbusy = t.vbusy := by
  unfold Strand.begin
  rw [Strand.foldl_noteWrite (·.vbusy) (fun t r => Strand.untie_vbusy t r)]
  split <;> simp
@[simp] theorem Strand.begin_nextIssue (t : Strand) (b : Body) : (t.begin b).nextIssue = t.nextIssue := by
  unfold Strand.begin
  rw [Strand.foldl_noteWrite (·.nextIssue) (fun t r => Strand.untie_nextIssue t r)]
  split <;> simp
@[simp] theorem Strand.begin_soPeer (t : Strand) (b : Body) : (t.begin b).soPeer = t.soPeer := by
  unfold Strand.begin
  rw [Strand.foldl_noteWrite (·.soPeer) (fun t r => Strand.untie_soPeer t r)]
  split <;> simp
@[simp] theorem Strand.begin_parts (t : Strand) (b : Body) : (t.begin b).parts = t.parts := by
  unfold Strand.begin
  rw [Strand.foldl_noteWrite (·.parts) (fun t r => Strand.untie_parts t r)]
  split <;> simp
@[simp] theorem Strand.begin_rep (t : Strand) (b : Body) : (t.begin b).rep = t.rep := by
  unfold Strand.begin
  rw [Strand.foldl_noteWrite (·.rep) (fun t r => Strand.untie_rep t r)]
  split <;> simp
@[simp] theorem Strand.begin_events (t : Strand) (b : Body) : (t.begin b).events = t.events := by
  unfold Strand.begin
  rw [Strand.foldl_noteWrite (·.events) (fun t r => Strand.untie_events t r)]
  split <;> simp
@[simp] theorem Strand.begin_frameSel (t : Strand) (b : Body) : (t.begin b).frameSel = t.frameSel := by
  unfold Strand.begin
  rw [Strand.foldl_noteWrite (·.frameSel) (fun t r => Strand.untie_frameSel t r)]
  split <;> simp
@[simp] theorem Strand.begin_bskip (t : Strand) (b : Body) : (t.begin b).bskip = false := by
  unfold Strand.begin
  rw [Strand.foldl_noteWrite (·.bskip) (fun t r => Strand.untie_bskip t r)]
  split <;> simp
@[simp] theorem Strand.begin_readX (t : Strand) (b : Body) (r : Nat) : (t.begin b).readX r = t.readX r := by
  simp [Strand.readX]
@[simp] theorem Strand.begin_readC (t : Strand) (b : Body) (r : Nat) : (t.begin b).readC r = t.readC r := by
  simp [Strand.readC]
@[simp] theorem Strand.begin_readV (t : Strand) (b : Body) (r : Nat) : (t.begin b).readV r = t.readV r := by
  simp [Strand.readV]
@[simp] theorem Strand.begin_readP (t : Strand) (b : Body) (r : Nat) : (t.begin b).readP r = t.readP r := by
  simp [Strand.readP]

end Sys2Proof.Machine
end

