-- ==== Sys2Proof/Laws/Issue.lean ====
section
/-! SUPPORT. What issuing an instruction does, said once: with its sources ready its effect decides what comes of it. -/

namespace Sys2Proof.Machine

theorem Strand.ne_reset_of_running {t : Strand} (h : t.status = .running) : t ≠ Strand.reset := by
  intro e; subst e; simp [Strand.reset] at h

@[simp] theorem State.me_setMe_of_ne (s : State) {t : Strand} (h : t ≠ Strand.reset) : (s.setMe t).me = t := by
  simp [State.me, State.strand, State.setMe, State.setStrand, sget_sset_same_of_ne _ _ _ h]

theorem State.me_setMe_running (s : State) {t : Strand} (h : t.status = .running) : (s.setMe t).me = t :=
  s.me_setMe_of_ne (Strand.ne_reset_of_running h)

theorem State.setMe_setMe_of_ne (s : State) {t : Strand} (h : t ≠ Strand.reset) (u : Strand) : (s.setMe t).setMe u = s.setMe u := by
  simp [State.setMe, State.setStrand, sset_sset_of_ne _ _ _ h]

theorem State.setMe_setMe_running (s : State) {t : Strand} (h : t.status = .running) (u : Strand) :
    (s.setMe t).setMe u = s.setMe u :=
  s.setMe_setMe_of_ne (Strand.ne_reset_of_running h) u

theorem Strand.begin_eq_issued (t : Strand) (b : Body) : t.begin b = t.issued b.sync b.writes := rfl

@[simp] theorem Strand.isDropped_of_none (t : Strand) (r : RegRef) (hx : t.dropX = 0) (hv : t.dropV = 0) : t.isDropped r = false := by
  simp [Strand.isDropped, hx, hv]; split <;> rfl

theorem rebuildAll_of_none (rs : List RegRef) (s : State) (hx : s.me.dropX = 0) (hv : s.me.dropV = 0) :
    rebuildAll rs s = .ok s := by
  unfold rebuildAll
  induction rs with
  | nil => rfl
  | cons r rest ih =>
    have : rebuild r s = .ok s := by simp [rebuild, rebuildN, s.me.isDropped_of_none r hx hv]
    simp [eachReg, this, bind, Except.bind, ih]

theorem flatMap_droppedBy_of_none (ws : List RegRef) (t : Strand) (hx : t.dropX = 0) (hv : t.dropV = 0) :
    ws.flatMap t.droppedBy = [] := by
  simp [Strand.droppedBy, hx, hv]

/-- A ready instruction that passes its first checks is performed on the strand as it issues. -/
theorem attempt_ready (b : Body) (off : Int) (s : State) (hpre : b.pre s = .ok ()) (hl : b.late s = .ok s)
    (hb : ∀ r ∈ b.rebuilds, r.cls = .v → r ∈ b.writes) (h : Ready b.reads b.writes b.lat s) : attempt b off s = orParked s (b.eff off (s.setMe (s.me.begin b))) := by
  obtain ⟨_, hp, hv, hs, hx, hd, hf⟩ := h
  have hh : s.me.holds b s.cycle = false := by
    simp only [Strand.holds, Bool.or_eq_false_iff, List.any_eq_false]
    refine ⟨fun r hr => by simp [hp r hr], fun r hr => ?_⟩
    simp only [List.mem_append] at hr
    by_cases hc : r.cls = .v
    · have : r ∈ b.reads ++ b.writes := by
        rcases hr with (hr | hr) | hr
        · exact List.mem_append_left _ hr
        · exact List.mem_append_right _ (hb r hr hc)
        · exact List.mem_append_right _ hr
      simp [hv r this hc]
    · simp [hc]
  have hsh : checkShort s.me b.reads s.cycle = .ok () := by
    unfold checkShort
    split
    · have : b.reads.find? (fun r => decide (0 < s.me.shortBy r s.cycle)) = none := by
        simp only [List.find?_eq_none, decide_eq_true_eq]
        intro r hr; rw [hs ‹_› r hr]; omega
      rw [this]
    · rfl
  have hall : b.reads.all s.me.isFull = true := by simpa using hf
  simp only [attempt, Body.perform, hpre, hl, hh, hsh, bind, Except.bind, flatMap_droppedBy_of_none _ _ hx hd,
    rebuildAll_of_none _ _ hx hd, hall, if_true, Bool.false_eq_true, if_false]

/-- An effect that leaves no strand waiting stands as it is. -/
theorem orParked_ok (s u : State) (h : u.me.waiting = false) : orParked s (.ok u) = .ok u := by simp [orParked, h]

/-- An instruction whose effect takes place completes: the strand goes on, and a lock that it holds counts it. -/
theorem issue_of_ok (b : Body) (s s1 : State) (hpre : b.pre s = .ok ()) (hl : b.late s = .ok s) (hb : ∀ r ∈ b.rebuilds, r.cls = .v → r ∈ b.writes)
    (h : Ready b.reads b.writes b.lat s) (he : b.eff 0 (s.setMe (s.me.begin b)) = .ok s1) (hw : s1.me.waiting = false) :
    issue b s = .next (s.countIssue (s1.finish b)) := by
  simp [issue, attempt_ready b 0 s hpre hl hb h, he, orParked_ok s s1 hw, Except.map, outcome]

/-- One that its effect sends to wait leaves its strand as it was, but Parked, in what else the effect has done. -/
theorem issue_of_wait (b : Body) (s s1 : State) (hpre : b.pre s = .ok ()) (hl : b.late s = .ok s) (hb : ∀ r ∈ b.rebuilds, r.cls = .v → r ∈ b.writes)
    (h : Ready b.reads b.writes b.lat s) (he : b.eff 0 (s.setMe (s.me.begin b)) = .ok s1) (hw : s1.me.waiting = true) :
    issue b s = .next (s.countIssue ((s1.setMe (s.me.parked s1.me.wait)).finish b)) := by
  simp [issue, attempt_ready b 0 s hpre hl hb h, he, orParked, hw, Except.map, outcome]

/-- An instruction whose effect traps enters the handler. -/
theorem issue_of_trap (b : Body) (s : State) (t : TrapInfo) (hpre : b.pre s = .ok ()) (hl : b.late s = .ok s)
    (hb : ∀ r ∈ b.rebuilds, r.cls = .v → r ∈ b.writes) (h : Ready b.reads b.writes b.lat s)
    (he : b.eff 0 (s.setMe (s.me.begin b)) = .error (.trap t)) : issue b s = .next (s.trapMe t) := by
  simp [issue, attempt_ready b 0 s hpre hl hb h, he, orParked, Except.map, outcome]

@[simp] theorem Strand.parked_waiting (t : Strand) (w : Wait) : (t.parked w).waiting = true := by
  by_cases h : w = .reap <;> simp [Strand.parked, Strand.waiting, h]

/-- One whose effect parks leaves its strand parked before it. -/
theorem issue_of_park (b : Body) (s : State) (w : Wait) (hpre : b.pre s = .ok ()) (hl : b.late s = .ok s)
    (hb : ∀ r ∈ b.rebuilds, r.cls = .v → r ∈ b.writes) (h : Ready b.reads b.writes b.lat s)
    (he : b.eff 0 (s.setMe (s.me.begin b)) = .error (.park w)) : issue b s = .next (s.setMe (s.me.parked w)) := by
  have hn : s.me.parked w ≠ Strand.reset := fun e => by have := (s.me.parked_waiting w).symm.trans (congrArg Strand.waiting e); simp [Strand.waiting, Strand.reset] at this
  have hm := s.me_setMe_of_ne hn
  simp [issue, attempt_ready b 0 s hpre hl hb h, he, orParked, Except.map, outcome, State.finish, State.countIssue, hm]
  split <;> rfl

/-- One that a check before all else stops with a trap. -/
theorem issue_of_pre (b : Body) (s : State) (t : TrapInfo) (hpre : b.pre s = .error (.trap t)) : issue b s = .next (s.trapMe t) := by
  simp [issue, attempt, hpre, bind, Except.bind, Except.map, outcome]

/-- The end of an instruction that leaves its strand Running. -/
theorem State.finish_running (s : State) (b : Body) (h : s.me.status = .running) :
    s.finish b = s.setMe { s.me with pc := if b.jumps then s.me.pc else s.me.pc + b.len, nextIssue := s.cycle + gapOf b.sc,
                                     rep := none, wait := .none } := by
  simp [State.finish, Strand.waiting, h]

/-- An instruction that changes nothing but its strand. -/
theorem issue_of_strand (b : Body) (s : State) (u : Strand) (hpre : b.pre s = .ok ()) (hl : b.late s = .ok s)
    (hb : ∀ r ∈ b.rebuilds, r.cls = .v → r ∈ b.writes) (h : Ready b.reads b.writes b.lat s) (hu : u.status = .running)
    (he : b.eff 0 (s.setMe (s.me.begin b)) = .ok (s.setMe u)) :
    issue b s = .next (s.retire (if b.jumps then u.jumped s.cycle b.sc u.pc else u.past s.cycle b.sc b.len)) := by
  have hme := s.me_setMe_running hu
  rw [issue_of_ok b s _ hpre hl hb h he (by rw [hme]; simp [Strand.waiting, hu])]
  rw [State.finish_running _ _ (by rw [hme]; exact hu), hme, s.setMe_setMe_running hu]
  simp only [State.setMe_cycle, State.retire, Strand.past, Strand.jumped]
  split <;> rfl

end Sys2Proof.Machine
end

