-- ==== Sys2Proof/Laws/Access.lean ====
section
/-! SUPPORT. Accesses through a capability: when the checks of Table 1.7 and Table 10.3 pass, and what they then give. -/

namespace Sys2Proof.Machine

theorem need_ok (c : Cause) (v : Word) (cap : Nat) : need true c v cap = .ok () := rfl

theorem one_ok {α : Type} (a : α) : one (.ok a : Except Fail α) = .ok a := rfl

theorem one_error {α : Type} (f : Fail) : one (.error f : Except Fail α) = .error f.stop := rfl

/-- Check 4 passes when no permission is missing. -/
theorem checkPerm_ok (c : Cap) (want : BitVec 14) (reg : Nat) (h : want &&& ~~~c.perms = 0) : checkPerm c want reg = .ok () := by
  simp [checkPerm, need, h]

/-- Checks 1 to 5 pass on an allowed capability. -/
theorem check15_ok (s : State) (c : Cap) (reg : Nat) (want : BitVec 14) (shape : Bool) (h : Allowed s c want shape) :
    check15 s c reg want shape = .ok () := by
  obtain ⟨ht, ho, hs, hp, hc, hsp, hsh⟩ := h
  simp [check15, checkTagSeal, checkGen, checkFmt, need, ht, ho, hs, checkPerm_ok c want reg hp, hc, hsp, hsh, bind, Except.bind]

/-- An address that is aligned and mapped for its use is placed there, before banks and blocks are looked at. -/
theorem mapped_ok (s : State) (pid : Option Nat) (reg : Nat) (use : Use) (align : Nat) (addr : Int) (l : Leaf) (pa : Nat)
    (ha : addr % (align : Int) = 0) (h0 : 0 ≤ addr) (ht : translate s pid addr.toNat use = .ok (l, pa)) :
    mapped s pid reg use align addr = .ok { va := addr.toNat, pa := pa, leaf := l, integ := none } := by
  have h1 : ¬addr < 0 := by omega
  simp only [mapped, ha, ne_eq, not_true_eq_false, if_false, h1, ht]

/-- Outside a bank a strand's access of a mapped element meets what `served` says, and no more. -/
theorem banked_ok (s : State) (c : Cap) (reg : Nat) (a : Acc) (e : Elem) (hs : a.strand = some s.cur)
    (hb : ∀ core b, s.place e.pa = .bank core b → bankCheck s c reg a e.va core b = .ok ()) (hv : served s a.use a.align c.objid e = true) :
    banked s c reg a { e with integ := none } = .ok e := by
  obtain ⟨va, pa, leaf, integ⟩ := e
  unfold banked
  unfold served at hv
  dsimp only at hb hv ⊢
  generalize s.place pa = q at hb hv ⊢
  cases q with
  | bank core b =>
    have := of_decide_eq_true hv; subst this
    dsimp only; rw [hb core b rfl]
  | gddr d =>
    dsimp only at hv ⊢
    split at hv
    · rename_i hi
      simp only [Bool.and_eq_true, decide_eq_true_eq] at hv
      obtain ⟨hi2, hr⟩ := hv
      rw [if_pos hi]
      unfold verified
      rw [hs]
      dsimp only
      rw [← hr]
      cases integ with
      | none => simp at hi2
      | some k => rfl
    · rename_i hi
      have := of_decide_eq_true hv; subst this
      exact if_neg hi
  | peer =>
    simp only [Bool.and_eq_true, decide_eq_true_eq] at hv
    obtain ⟨hm, rfl⟩ := hv
    exact if_neg fun h => hm h.1
  | tagArea => have := of_decide_eq_true hv; subst this; rfl
  | peerWindow => have := of_decide_eq_true hv; subst this; rfl
  | hole => have := of_decide_eq_true hv; subst this; rfl

/-- An access of the current strand that is aligned, mapped, open at its bank and served is placed. -/
theorem placed_ok (s : State) (c : Cap) (reg : Nat) (a : Acc) (addr : Int) (e : Elem) (hs : a.strand = some s.cur)
    (ha : addr % (a.align : Int) = 0) (h0 : 0 ≤ addr) (hva : e.va = addr.toNat)
    (ht : translate s (s.pidOf s.cur) addr.toNat a.use = .ok (e.leaf, e.pa))
    (hb : ∀ core b, s.place e.pa = .bank core b → bankCheck s c reg a e.va core b = .ok ()) (hv : served s a.use a.align c.objid e = true) :
    placed s (s.pidOf s.cur) c reg a addr = .ok e := by
  simp only [placed, mapped_ok s _ reg a.use a.align addr e.leaf e.pa ha h0 ht, ← hva]
  exact banked_ok s c reg a e hs hb hv

/-- Elements that all pass are gathered. -/
theorem gather_ok {α : Type} (as : List α) : gather (as.map fun a => (.ok a : Except Fail α)) = .ok as := by
  have h1 : fails (as.map fun a => (.ok a : Except Fail α)) = [] := by
    induction as with
    | nil => rfl
    | cons a rest ih => exact ih
  have h2 : oks (as.map fun a => (.ok a : Except Fail α)) = as := by
    induction as with
    | nil => rfl
    | cons a rest ih =>
      have := ih h1
      simp only [oks, List.map_cons, List.filterMap_cons]; exact congrArg (a :: ·) this
  simp [gather, h1, h2, worst]

end Sys2Proof.Machine
end

