-- ==== Sys2Proof/Laws/Memory.lean ====
section
/-! SUPPORT. Memory: what a write leaves alone, what reads back, and that every operation keeps memory, tags and full/empty bits in
canonical form. -/

namespace Sys2Proof.Machine

/-! Bytes of a list of cells. -/

theorem memPut_wf (m : List Host.Cell) (pa n v : Nat) (h : Memory.wf m) : Memory.wf (memPut m pa n v) := by
  induction n generalizing m pa v with
  | zero => exact h
  | succ n ih => exact ih _ _ _ (swf_sset memDefault m pa _ h)

/-- A byte outside those written reads as before. -/
theorem sget_memPut_other (m : List Host.Cell) (pa n v q : Nat) (h : Memory.wf m) (hq : q < pa ∨ pa + n ≤ q) :
    sget memDefault (memPut m pa n v) q = sget memDefault m q := by
  induction n generalizing m pa v with
  | zero => rfl
  | succ n ih =>
    simp only [memPut]
    rw [ih _ _ _ (swf_sset memDefault m pa _ h) (by omega), sget_sset_other memDefault m _ h (by omega)]

/-- Byte `k` of what was written. -/
theorem sget_memPut_same (m : List Host.Cell) (pa n v k : Nat) (h : Memory.wf m) (hk : k < n) :
    sget memDefault (memPut m pa n v) (pa + k) = BitVec.ofNat 8 (v / 256 ^ k) := by
  induction n generalizing m pa v k with
  | zero => omega
  | succ n ih =>
    simp only [memPut]
    have hw := swf_sset memDefault m pa (BitVec.ofNat 8 v) h
    cases k with
    | zero => rw [sget_memPut_other _ _ _ _ _ hw (by omega), Nat.add_zero, sget_sset_same memDefault m pa _ h]; simp
    | succ k =>
      rw [show pa + (k + 1) = pa + 1 + k by omega, ih _ _ _ _ hw (by omega), Nat.div_div_eq_div_mul, Nat.pow_succ, Nat.mul_comm 256]

theorem tagsClear_wf (t : Sparse Bool) (pa n : Nat) (h : swf false t = true) : swf false (tagsClear t pa n) = true := by
  unfold tagsClear
  split
  · exact h
  · exact swf_sclear false _ _ t h

/-! A filtered table. -/

theorem sabove_filter {α : Type} (m : Sparse α) (k : Nat) (f : Nat × α → Bool) (h : sabove k m = true) :
    sabove k (m.filter f) = true := by
  simp only [sabove, List.all_eq_true] at *
  exact fun e he => h e (List.mem_filter.1 he).1

/-- A key that is kept reads as before, one that is not reads the default. -/
theorem sget_skeep {α : Type} [DecidableEq α] (d : α) (f : Nat → Bool) (m : Sparse α) (k : Nat) (h : swf d m = true) :
    sget d (skeep f m) k = if f k then sget d m k else d := by
  induction m with
  | nil => simp [skeep, sget]
  | cons e rest ih =>
    obtain ⟨j, v⟩ := e
    simp only [swf, Bool.and_eq_true, decide_eq_true_eq] at h
    have ih := ih h.2
    simp only [skeep] at *
    have ha : k ≤ j → sget d (rest.filter fun e => f e.1) k = d := fun hk =>
      sget_of_sabove d _ (sabove_filter _ _ _ (sabove_mono _ hk h.1.2))
    have hr : k ≤ j → sget d rest k = d := fun hk => sget_of_sabove d _ (sabove_mono _ hk h.1.2)
    simp only [List.filter_cons]
    split <;> simp only [sget] <;> grind

theorem sget_sclear {α : Type} [DecidableEq α] (d : α) (lo hi : Nat) (m : Sparse α) (k : Nat) (h : swf d m = true) :
    sget d (sclear lo hi m) k = if lo ≤ k ∧ k < hi then d else sget d m k := by
  rw [sclear, sget_skeep d _ m k h]
  by_cases h1 : lo ≤ k <;> by_cases h2 : k < hi <;> simp [h1, h2]

/-- Entries put back one by one keep the canonical form. -/
theorem putBack_wf {α : Type} [DecidableEq α] (d : α) (m saved : Sparse α) (h : swf d m = true) : swf d (putBack d m saved) = true := by
  unfold putBack
  induction saved generalizing m with
  | nil => exact h
  | cons e rest ih => exact ih _ (swf_sset d m _ _ h)

/-! Tables of the state that a unit may change while memory stays. -/

@[simp] theorem State.post_mem (s : State) (n : Nat) (e : Event) : (s.post n e).mem = s.mem := rfl

@[simp] theorem State.post_tags (s : State) (n : Nat) (e : Event) : (s.post n e).tags = s.tags := rfl

@[simp] theorem State.post_fe (s : State) (n : Nat) (e : Event) : (s.post n e).fe = s.fe := rfl

/-- Bytes kept for GDDR7 are the only thing that `keepUnder` changes. -/
theorem State.keepUnder_eq (s : State) (pa : Nat) (b : BitVec 128) : ∃ u, s.keepUnder pa b = { s with under := u } := ⟨_, rfl⟩

/-- A request to a home slice changes the directory of one die, and what GDDR7 keeps; one to the peer card sends a packet. -/
theorem State.l2Request_eq (s : State) (pid : Nat) (va : Option Nat) (pa : Nat) (b : BitVec 128) (ef : Bool) (integ : Option Integ) :
    ∃ ds u o, s.l2Request pid va pa b ef integ = { s with dies := ds, under := u, outbox := o } := by
  unfold State.l2Request
  split
  · dsimp only
    split
    · obtain ⟨u, h⟩ := s.keepUnder_eq pa b
      rw [h]; exact ⟨_, _, s.outbox, rfl⟩
    · exact ⟨_, s.under, s.outbox, rfl⟩
  · split
    · exact ⟨s.dies, s.under, _, rfl⟩
    · exact ⟨s.dies, s.under, s.outbox, rfl⟩
  · exact ⟨s.dies, s.under, s.outbox, rfl⟩

theorem State.writeBack_eq (s : State) (pid : Nat) (ls : List L1Line) :
    ∃ ds u o, s.writeBack pid ls = { s with dies := ds, under := u, outbox := o } := by
  unfold State.writeBack
  generalize ls.filter _ = l
  induction l generalizing s with
  | nil => exact ⟨s.dies, s.under, s.outbox, rfl⟩
  | cons e rest ih =>
    obtain ⟨d1, u1, o1, h1⟩ := s.l2Request_eq pid (some e.va) (e.line * 2 ^ 7) e.dirty e.ef (e.integ.map fun o => { objid := o, whole := false })
    rw [List.foldl_cons, h1]
    obtain ⟨d2, u2, o2, h2⟩ := ih { s with dies := d1, under := u1, outbox := o1 }
    exact ⟨d2, u2, o2, by rw [h2]⟩

/-- An access to a line changes a core's L1 and directories of the dies, and what GDDR7 keeps; one to the peer card sends a packet. -/
theorem State.lineAccess_eq (s : State) (core pid va pa entry : Nat) (b : BitVec 128) (tag : Bool) (integ : Option Integ) :
    ∃ cs ds u o, s.lineAccess core pid va pa entry b tag integ = { s with cores := cs, dies := ds, under := u, outbox := o } := by
  unfold State.lineAccess
  split
  · dsimp only
    split
    · obtain ⟨u, hu⟩ : ∃ u, (if integ.isSome then s.keepUnder pa b else s) = { s with under := u } := by
        split
        · exact s.keepUnder_eq pa b
        · exact ⟨s.under, rfl⟩
      rw [hu]
      split
      · exact ⟨_, s.dies, u, s.outbox, rfl⟩
      · generalize hc : State.setCore { s with under := u } core _ = s1
        generalize List.drop 7 _ = old
        obtain ⟨d1, u1, o1, h1⟩ := s1.writeBack_eq pid old
        rw [h1]
        obtain ⟨d2, u2, o2, h2⟩ := ({ s1 with dies := d1, under := u1, outbox := o1 } : State).l2Request_eq pid (some va) pa 0 (bitOf entry 5) integ
        rw [h2, ← hc]
        exact ⟨_, d2, u2, o2, rfl⟩
    · obtain ⟨d, u, o, h⟩ := s.l2Request_eq pid (some va) pa b (bitOf entry 5) integ
      exact ⟨s.cores, d, u, o, by rw [h]⟩
  · obtain ⟨d, u, o, h⟩ := s.l2Request_eq pid (some va) pa b (bitOf entry 5) integ
    exact ⟨s.cores, d, u, o, by rw [h]⟩

/-- Tracking a write changes one partition's dirty bitmap and nothing else. -/
theorem State.markDirty_eq (s : State) (pa : Nat) : ∃ ps, s.markDirty pa = { s with parts := ps } := by
  unfold State.markDirty
  split
  · split
    · dsimp only
      split
      · exact ⟨_, rfl⟩
      · exact ⟨s.parts, rfl⟩
    · exact ⟨s.parts, rfl⟩
  · exact ⟨s.parts, rfl⟩

/-- A write of a line drops what derives from it here, and tells the peer card. -/
theorem State.noteLine_eq (s : State) (pa : Nat) : ∃ cs cls un ob,
    s.noteLine pa = { s with cores := cs, clusters := cls, unacked := un, outbox := ob } := by
  unfold State.noteLine
  split
  · unfold State.tellPeer
    split
    · exact ⟨_, _, _, _, rfl⟩
    · exact ⟨_, _, s.unacked, s.outbox, rfl⟩
  · exact ⟨s.cores, s.clusters, s.unacked, s.outbox, rfl⟩

/-- Block records of a core are all that `dropRecords` changes. -/
theorem State.dropRecords_eq (s : State) (pa n : Nat) : ∃ cs, s.dropRecords pa n = { s with cores := cs } := by
  unfold State.dropRecords
  split
  · dsimp only
    split
    · exact ⟨s.cores, rfl⟩
    · exact ⟨_, rfl⟩
  · exact ⟨s.cores, rfl⟩

/-- What a write does beside bytes and tags. -/
theorem State.wrote_eq (s : State) (pa n : Nat) : ∃ cs cls ps un ob,
    s.wrote pa n = { s with cores := cs, clusters := cls, parts := ps, unacked := un, outbox := ob } := by
  unfold State.wrote
  dsimp only
  obtain ⟨ps, h1⟩ := s.markDirty_eq pa
  obtain ⟨c1, l1, n1, o1, h2⟩ := (s.markDirty pa).noteLine_eq pa
  obtain ⟨c2, h3⟩ := ((s.markDirty pa).noteLine pa).dropRecords_eq pa n
  rw [h3, h2, h1]
  split
  · exact ⟨_, _, _, _, _, rfl⟩
  · obtain ⟨c3, l3, n3, o3, h4⟩ := ({ s with cores := c2, clusters := l1, parts := ps, unacked := n1, outbox := o1 } : State).noteLine_eq
      (pa + n - 1)
    exact ⟨c3, l3, ps, n3, o3, by rw [h4]⟩

/-- What a store does to this card: bytes and tags written, and what goes with a write; one to the peer card goes out. -/
theorem State.store_eq (s : State) (pa n v : Nat) : ∃ cs cls ps un ob, s.store pa n v =
    if s.isPeer pa then { s with outbox := s.outbox ++ [Reply.peerWrite pa n v] }
    else { s with mem := memPut s.mem pa n v, tags := tagsClear s.tags pa n, cores := cs, clusters := cls, parts := ps, unacked := un,
                  outbox := ob } := by
  unfold State.store
  split
  · exact ⟨s.cores, s.clusters, s.parts, s.unacked, s.outbox, rfl⟩
  · obtain ⟨cs, cls, ps, un, ob, h⟩ :=
      ({ s with mem := memPut s.mem pa n v, tags := tagsClear s.tags pa n } : State).wrote_eq pa n
    exact ⟨cs, cls, ps, un, ob, by rw [h]⟩

theorem State.storeCap_eq (s : State) (pa : Nat) (c : Cap) : ∃ cs cls ps un ob, s.storeCap pa c =
    if s.isPeer pa then { s with outbox := s.outbox ++ [Reply.peerWriteCap pa c] }
    else { s with mem := memPut s.mem pa 64 c.bits.toNat, tags := sset false s.tags (pa / 64) c.tag, cores := cs, clusters := cls,
                  parts := ps, unacked := un, outbox := ob } := by
  unfold State.storeCap
  split
  · exact ⟨s.cores, s.clusters, s.parts, s.unacked, s.outbox, rfl⟩
  · obtain ⟨cs, cls, ps, un, ob, h⟩ :=
      ({ s with mem := memPut s.mem pa 64 c.bits.toNat, tags := sset false s.tags (pa / 64) c.tag } : State).wrote_eq pa 64
    exact ⟨cs, cls, ps, un, ob, by rw [h]⟩

/-! Every operation on memory keeps the canonical form. -/

theorem State.MemOk.reset : State.reset.MemOk := by decide

theorem State.MemOk.store {s : State} (h : s.MemOk) (pa n v : Nat) : (s.store pa n v).MemOk := by
  obtain ⟨cs, cls, ps, un, ob, e⟩ := s.store_eq pa n v
  rw [e]
  split
  · exact h
  · exact ⟨memPut_wf _ _ _ _ h.1, tagsClear_wf _ _ _ h.2.1, h.2.2⟩

theorem State.MemOk.storeCap {s : State} (h : s.MemOk) (pa : Nat) (c : Cap) : (s.storeCap pa c).MemOk := by
  obtain ⟨cs, cls, ps, un, ob, e⟩ := s.storeCap_eq pa c
  rw [e]
  split
  · exact h
  · exact ⟨memPut_wf _ _ _ _ h.1, swf_sset _ _ _ _ h.2.1, h.2.2⟩

theorem State.MemOk.orByte {s : State} (h : s.MemOk) (pa : Nat) (m : Byte) : (s.orByte pa m).MemOk := by
  unfold State.orByte
  split
  · exact h
  · split
    · exact h
    · exact h.store _ _ _

theorem State.MemOk.setFe {s : State} (h : s.MemOk) (pa : Nat) (f w : Bool) : (s.setFe pa f w).MemOk :=
  ⟨h.1, h.2.1, swf_sset _ _ _ _ h.2.2⟩

theorem State.MemOk.l2Request {s : State} (h : s.MemOk) (pid : Nat) (va : Option Nat) (pa : Nat) (b : BitVec 128) (ef : Bool)
    (integ : Option Integ) : (s.l2Request pid va pa b ef integ).MemOk := by
  obtain ⟨ds, u, o, e⟩ := s.l2Request_eq pid va pa b ef integ
  rw [e]; exact h

theorem State.MemOk.walkReads {s : State} (h : s.MemOk) (pid : Nat) (path : List Nat) : (s.walkReads pid path).MemOk := by
  unfold State.walkReads
  induction path generalizing s with
  | nil => exact h
  | cons pa rest ih =>
    rw [List.foldl_cons]
    apply ih
    dsimp only
    have h1 := h.l2Request pid none pa 0 false none
    split
    · exact h1
    · exact h1

theorem State.tlbUse_eq (s : State) (v : Via) (e : TlbEntry) : ∃ cs cls, s.tlbUse v e = { s with cores := cs, clusters := cls } := by
  unfold State.tlbUse
  split
  · split
    · exact ⟨s.cores, s.clusters, rfl⟩
    · dsimp only
      split
      · exact ⟨_, s.clusters, rfl⟩
      · exact ⟨_, _, rfl⟩
  · split
    · exact ⟨s.cores, s.clusters, rfl⟩
    · exact ⟨s.cores, _, rfl⟩
  · exact ⟨s.cores, s.clusters, rfl⟩

theorem State.MemOk.touchLeaf {s : State} (h : s.MemOk) (v : Via) (pid va : Nat) (l : Leaf) (w : Bool) :
    (s.touchLeaf v pid va l w).MemOk := by
  unfold State.touchLeaf
  dsimp only
  obtain ⟨cs, cls, e⟩ := State.tlbUse_eq
    ((if s.tlbHas v (l.entryOf pid va) then s else s.walkReads pid l.path).orByte (l.at_ + 1) (if w then 0x06 else 0x04)) v
    (l.entryOf pid va)
  rw [e]
  have hk : (if s.tlbHas v (l.entryOf pid va) then s else s.walkReads pid l.path).MemOk := by
    split
    · exact h
    · exact h.walkReads pid l.path
  exact hk.orByte _ _

theorem State.MemOk.lineAccess {s : State} (h : s.MemOk) (core pid va pa entry : Nat) (b : BitVec 128) (tag : Bool) (integ : Option Integ) :
    (s.lineAccess core pid va pa entry b tag integ).MemOk := by
  obtain ⟨cs, ds, u, o, e⟩ := s.lineAccess_eq core pid va pa entry b tag integ
  rw [e]; exact h

theorem State.MemOk.touchPage {s : State} (h : s.MemOk) (e : Elem) (w : Bool) : (s.touchPage e w).MemOk := h.touchLeaf _ _ _ _ _

theorem State.MemOk.touch {s : State} (h : s.MemOk) (e : Elem) (n : Nat) (w : Bool) : (s.touch e n w).MemOk :=
  (h.touchPage e w).lineAccess _ _ _ _ _ _ _ _

theorem State.MemOk.touchAll {s : State} (h : s.MemOk) (es : List Elem) (n : Nat) (w : Bool) : (s.touchAll es n w).MemOk := by
  unfold State.touchAll
  dsimp only
  have h1 : (es.foldl (fun s e => s.touchPage e w) s).MemOk := by
    induction es generalizing s with
    | nil => exact h
    | cons e rest ih => exact ih (h.touchPage e w)
  generalize es.foldl (fun s e => s.touchPage e w) s = s1 at h1
  generalize hl : lineHeads es = hs
  clear hl h
  induction hs generalizing s1 with
  | nil => exact h1
  | cons e rest ih => exact ih _ (h1.lineAccess _ _ _ _ _ _ _ _)

theorem State.MemOk.holdSo {s : State} (h : s.MemOk) (n : Nat) (b : Bool) : (s.holdSo n b).MemOk := by
  unfold State.holdSo
  split <;> exact h

theorem State.MemOk.postPeer {s : State} (h : s.MemOk) (n : Nat) (so : Bool) : (s.postPeer n so).MemOk :=
  State.MemOk.holdSo (s := { s with unacked := sset 0 s.unacked n (sget 0 s.unacked n + 1) }) h n so

/-- A strand's write of an address keeps it when the write does. -/
theorem State.MemOk.postsFor (s : State) (n pa : Nat) (so : Bool) (write : State → State) (h : (write s).MemOk) :
    (s.postsFor n pa so write).MemOk := by
  unfold State.postsFor
  split
  · exact h.postPeer _ _
  · exact h.holdSo _ _

theorem State.MemOk.storeElem {s : State} (h : s.MemOk) (e : Elem) (n v : Nat) : (s.storeElem e n v).MemOk :=
  State.MemOk.postsFor _ _ _ _ _ ((h.touch e n true).store e.pa n v)

/-- One part of a store keeps it. -/
theorem State.MemOk.writePart {s : State} (h : s.MemOk) (n : Nat) (ws : List PartWrite) : (s.writePart n ws).MemOk := by
  unfold State.writePart State.touchFor
  dsimp only
  generalize hk : (ws.head?.map (·.size)).getD 1 = k
  generalize he : ws.filterMap _ = es
  clear hk he
  have h1 : ({ ({ s with cur := n } : State).touchAll es k true with cur := s.cur } : State).MemOk :=
    State.MemOk.touchAll (s := { s with cur := n }) h es k true
  generalize ({ ({ s with cur := n } : State).touchAll es k true with cur := s.cur } : State) = s1 at h1
  induction ws generalizing s1 with
  | nil => exact h1
  | cons w rest ih => exact ih _ (State.MemOk.postsFor _ _ _ _ _ (h1.store _ _ _))

/-- The parts of a store keep it. -/
theorem State.MemOk.writeParts {s : State} (h : s.MemOk) (n : Nat) (ps : List (List PartWrite)) : (s.writeParts n ps).MemOk := by
  induction ps generalizing s with
  | nil => exact h
  | cons p rest ih =>
    unfold State.writeParts
    dsimp only
    split
    · exact h.writePart n p
    · exact ih (h.writePart n p)

theorem State.MemOk.zeroBank {s : State} (h : s.MemOk) (core b : Nat) : (s.zeroBank core b).MemOk :=
  ⟨swf_sclear _ _ _ _ h.1, swf_sclear _ _ _ _ h.2.1, swf_sclear _ _ _ _ h.2.2⟩

theorem State.MemOk.zeroBytes {s : State} (h : s.MemOk) (pa n : Nat) : (s.zeroBytes pa n).MemOk := by
  unfold State.zeroBytes
  split
  · exact h.store pa n 0
  · dsimp only
    obtain ⟨ps, e⟩ := ({ s with mem := sclear pa (pa + n) s.mem, tags := tagsClear s.tags pa n } : State).markDirty_eq pa
    rw [e]
    generalize hs : ({ s with mem := sclear pa (pa + n) s.mem, tags := tagsClear s.tags pa n, parts := ps } : State) = s1
    have h1 : s1.MemOk := by subst hs; exact ⟨swf_sclear _ _ _ _ h.1, tagsClear_wf _ _ _ h.2.1, h.2.2⟩
    have h2 : ∀ l : List (Nat × Nat), ((l.foldl (fun s p => s.noteLine (pa + p.1)) s1)).MemOk := by
      intro l
      clear hs e
      induction l generalizing s1 with
      | nil => exact h1
      | cons p rest ih =>
        rw [List.foldl_cons]
        obtain ⟨cs, cls, un, ob, e⟩ := s1.noteLine_eq (pa + p.1)
        exact ih _ (by rw [e]; exact h1)
    generalize hf : (lineParts pa n).foldl _ s1 = s2
    obtain ⟨cs, e2⟩ := s2.dropRecords_eq pa n
    rw [e2]
    have := h2 (lineParts pa n)
    rw [hf] at this
    exact this

theorem State.MemOk.clearWindows {s : State} (h : s.MemOk) (f : Nat → Bool) : (s.clearWindows f).MemOk :=
  ⟨swf_skeep memDefault (fun a => !(s.inWindow f a)) s.mem h.1, swf_skeep false (fun a => !(s.inWindow f (64 * a))) s.tags h.2.1,
    swf_skeep 0 (fun a => !(s.inWindow f (8 * a))) s.fe h.2.2⟩

theorem State.MemOk.noteLine {s : State} (h : s.MemOk) (pa : Nat) : (s.noteLine pa).MemOk := by
  obtain ⟨cs, cls, un, ob, e⟩ := s.noteLine_eq pa
  rw [e]; exact h

/-- What keeps memory in order does so for a whole list. -/
theorem State.MemOk.foldl {α : Type} {f : State → α → State} (hf : ∀ s a, s.MemOk → (f s a).MemOk) (l : List α) {s : State} (h : s.MemOk) :
    (l.foldl f s).MemOk := by
  induction l generalizing s with
  | nil => exact h
  | cons a rest ih => exact ih (hf s a h)

theorem State.MemOk.noteRange {s : State} (h : s.MemOk) (lo hi : Nat) : (s.noteRange lo hi).MemOk :=
  State.MemOk.foldl (fun s _ h => State.MemOk.foldl (fun s pa h => by
    split
    · exact h.noteLine pa
    · exact h) _ h) _ h

theorem State.MemOk.giveRegion {s : State} (h : s.MemOk) (k : Nat) (r : Option Region) : (s.giveRegion k r).MemOk := by
  unfold State.giveRegion
  dsimp only
  generalize hs : State.noteRange _ _ _ = s1
  have h1 : s1.MemOk := by rw [← hs]; exact State.MemOk.noteRange (by exact h) _ _
  exact ⟨swf_sclear _ _ _ _ h1.1, swf_sclear _ _ _ _ h1.2.1, h1.2.2⟩

theorem State.MemOk.restore {s : State} (h : s.MemOk) (v : Saved) : (s.restore v).MemOk :=
  ⟨putBack_wf _ _ _ h.1, putBack_wf _ _ _ h.2.1, putBack_wf _ _ _ h.2.2⟩

/-- A line of a strand's image written back keeps it. -/
theorem State.MemOk.putLine {s : State} (h : s.MemOk) (pid pa v : Nat) (tags : Bool × Bool) : (s.putLine pid pa v tags).MemOk := by
  unfold State.putLine
  split
  · exact (((h.l2Request _ _ _ _ _ _).storeCap _ _).storeCap _ _)
  · exact h

/-- The memory controller's writes keep it. -/
theorem State.MemOk.writeGddr {s : State} (h : s.MemOk) (die : Nat) (w : GddrWrite) : (s.writeGddr die w).MemOk := by
  unfold State.writeGddr
  dsimp only
  split
  · apply State.MemOk.store
    simp only [State.MemOk, State.setDie_mem, State.setDie_tags, State.setDie_fe]
    exact h
  · simp only [State.MemOk, State.setDie_mem, State.setDie_tags, State.setDie_fe]
    exact h

/-! The register caches (R247). -/

theorem State.MemOk.putImage {s : State} (h : s.MemOk) (n l : Nat) : (s.putImage n l).MemOk := by
  unfold State.putImage
  split
  · exact h.putLine _ _ _ _
  · exact h

theorem State.MemOk.askImage {s : State} (h : s.MemOk) (n l : Nat) : (s.askImage n l).MemOk := by
  unfold State.askImage
  split
  · exact h.l2Request _ _ _ _ _ _
  · exact h

theorem State.MemOk.setCore {s : State} (h : s.MemOk) (n : Nat) (c : Core) : (s.setCore n c).MemOk := h

theorem State.MemOk.drop {s : State} (h : s.MemOk) (n : Nat) (r : RegRef) : (s.drop n r).MemOk := by
  unfold State.drop
  dsimp only
  split <;> exact h

theorem State.MemOk.evict {s : State} (h : s.MemOk) (core : Nat) (e : RegLine) : (s.evict core e).MemOk := by
  unfold State.evict
  dsimp only
  split
  · exact h
  · split
    · exact (h.setCore _ _).drop _ _
    · split
      · exact (h.setCore _ _).putImage _ _
      · exact h

theorem State.MemOk.roomFor {s : State} (h : s.MemOk) (core : Nat) : (s.roomFor core).MemOk := by
  unfold State.roomFor
  split
  · exact h
  · split
    · exact h.evict _ _
    · exact h

theorem State.MemOk.bringLine {s : State} (h : s.MemOk) (n l : Nat) (fetch write : Bool) : (s.bringLine n l fetch write).MemOk := by
  unfold State.bringLine
  dsimp only
  split
  · exact h
  · apply State.MemOk.setCore
    split
    · exact (h.roomFor _).askImage _ _
    · exact h.roomFor _

theorem State.MemOk.discardLines {s : State} (h : s.MemOk) (n : Nat) : (s.discardLines n).MemOk := by
  unfold State.discardLines
  dsimp only
  split
  · exact h
  · exact h

theorem State.MemOk.putFrame {s : State} (h : s.MemOk) (n i : Nat) (f : Frame) : (s.putFrame n i f).MemOk := by
  unfold State.putFrame
  split
  · exact (h.putLine _ _ _ _).putLine _ _ _ _
  · exact h

theorem State.MemOk.askFrame {s : State} (h : s.MemOk) (n i : Nat) : (s.askFrame n i).MemOk := by
  unfold State.askFrame
  split
  · exact (h.l2Request _ _ _ _ _ _).l2Request _ _ _ _ _ _
  · exact h

theorem State.MemOk.followFrames {s : State} (h : s.MemOk) (n : Nat) (old new : List Frame) : (s.followFrames n old new).MemOk := by
  unfold State.followFrames
  split
  · exact h
  · exact State.MemOk.foldl (fun s _ h => h.putFrame _ _ _) _ (State.MemOk.foldl (fun s _ h => h.askFrame _ _) _ h)

theorem State.MemOk.followStrand {s : State} (h : s.MemOk) (before : State) (n : Nat) :
    (Machine.followStrand before n s).MemOk := by
  unfold Machine.followStrand
  dsimp only
  split
  · split
    · exact h
    · exact h.discardLines n
  · split
    · exact State.MemOk.foldl (fun s _ h => h.bringLine _ _ _ _) _ h
    · split
      · exact h
      · exact (State.MemOk.foldl (fun s _ h => h.bringLine _ _ _ _) _ h).followFrames _ _ _

/-- Register caches and strand areas follow with memory in order. -/
theorem State.MemOk.follow {s : State} (h : s.MemOk) (before : State) : (s.follow before).MemOk := by
  unfold State.follow
  split
  · exact h
  · exact State.MemOk.foldl (fun s _ h => h.followStrand before _) _ h

/-! One byte after a write. -/

/-- What a store puts into memory reads back, byte by byte. -/
theorem State.byte_store_same (s : State) (pa n v k : Nat) (h : Memory.wf s.mem) (hk : k < n) (hp : s.isPeer pa = false)
    (hq : s.isPeer (pa + k) = false) : (s.store pa n v).byte (pa + k) = BitVec.ofNat 8 (v / 256 ^ k) := by
  obtain ⟨cs, cls, ps, un, ob, e⟩ := s.store_eq pa n v
  rw [e, if_neg (by simp [hp])]
  show (if s.isPeer (pa + k) then _ else _) = _
  rw [if_neg (by simp [hq])]
  exact sget_memPut_same _ _ _ _ _ h hk

/-- Every other byte reads as before. -/
theorem State.byte_store_other (s : State) (pa n v q : Nat) (h : Memory.wf s.mem) (hq : q < pa ∨ pa + n ≤ q) :
    (s.store pa n v).byte q = s.byte q := by
  obtain ⟨cs, cls, ps, un, ob, e⟩ := s.store_eq pa n v
  rw [e]
  split
  · rfl
  · show (if s.isPeer q then Config.peerByte s.cycle q else sget memDefault (memPut s.mem pa n v) q) = s.byte q
    rw [sget_memPut_other _ _ _ _ _ h hq]; rfl

end Sys2Proof.Machine
end

