-- ==== Sys2Proof/Laws/PerInstr.lean ====
section
/-! SUPPORT. For every instruction: its word fills its length, 32 bits when bit 0 is 1 and 16 when it is 0 (R54). -/

namespace Sys2Proof.Laws

/-- The word of an instruction: odd and below 2^32, or even and below 2^16. -/
abbrev Fits (w : Nat) : Prop := (w % 2 = 1 ∧ w < 2 ^ 32) ∨ (w % 2 = 0 ∧ w < 2 ^ 16)

/-- The word of an instruction fits; an event has none. -/
def WordFits.Statement (i : Instr) : Prop := ∀ w, encode i = some w → Fits w

theorem fits_encR (major f4 : Nat) (a : RArgs) (hm : major < 64) (hf : f4 < 16) : Fits (encR major f4 a) := by
  have := a.rd.isLt; have := a.rs1.isLt; have := a.rs2.isLt; have := a.h.isLt; have := a.sc.isLt; have := Bool.toNat_le a.sr
  simp only [Fits, encR, encHead, encRegs]; omega

theorem fits_encF (f4 : Nat) (a : FArgs) (hf : f4 < 16) : Fits (encF f4 a) := by
  have := a.rd.isLt; have := a.rs1.isLt; have := a.rs2.isLt; have := a.h.isLt; have := a.sc.isLt; have := Bool.toNat_le a.sr
  have hm : a.ty.major < 64 := by cases a.ty <;> decide
  simp only [Fits, encF, encHead, encRegs]; omega

theorem fits_encCvt (a : CvtArgs) : Fits (encCvt a) := by
  have := a.rd.isLt; have := a.rs1.isLt; have := a.rm.isLt; have := a.src.isLt; have := a.dst.isLt; have := a.h.isLt
  have := a.sc.isLt; have := Bool.toNat_le a.sr; have := Bool.toNat_le a.sat
  simp only [Fits, encCvt, encHead, encRegs]; omega

theorem fits_encI (major f3 : Nat) (a : IArgs) (hm : major < 64) (hf : f3 < 8) : Fits (encI major f3 a) := by
  have := a.rd.isLt; have := a.rs1.isLt; have := a.imm.isLt; have := a.sc.isLt
  simp only [Fits, encI, encHead, encRegs]; omega

theorem fits_encS (major f3 : Nat) (a : SArgs) (hm : major < 64) (hf : f3 < 8) : Fits (encS major f3 a) := by
  have := a.rs1.isLt; have := a.rs2.isLt; have := a.imm.isLt; have := a.sc.isLt
  simp only [Fits, encS, encHead, encRegs]; omega

theorem fits_encM (major d : Nat) (a : MArgs) (hm : major < 64) (hd : d < 2) : Fits (encM major d a) := by
  have := a.rd.isLt; have := a.cs.isLt; have := a.xi.isLt; have := a.xj.isLt; have := a.sc.isLt; have := Bool.toNat_le a.h0
  simp only [Fits, encM, encHead, encRegs]; omega

theorem fits_encA (op : Nat) (a : AArgs) (ho : op < 16) : Fits (encA op a) := by
  have := a.rd.isLt; have := a.cs.isLt; have := a.rs2.isLt; have := a.scope.isLt; have := a.ord.isLt; have := a.sc.isLt
  simp only [Fits, encA, encHead, encRegs]; omega

theorem fits_encVE (major : Nat) (a b c : Nat) (three two : Nat) (h sc : Fin 4) (hm : major < 64) (ha : a < 32) (hb : b < 32) (hc : c < 32)
    (h3 : three < 8) (h2 : two < 4) : Fits (encVE major a b c three two h sc) := by
  have := h.isLt; have := sc.isLt
  simp only [Fits, encVE, encHead, encRegs]; omega

theorem fits_encC16 (op : Nat) (a : C16Args) (ho : op < 16) : Fits (encC16 op a) := by
  have := a.vd.isLt; have := a.vs2.isLt; have := Bool.toNat_le a.p1
  simp only [Fits, encC16]; omega

theorem fits_encRep (a : RepArgs) : Fits (encRep a) := by
  have := Bool.toNat_le a.xc; have := a.count.isLt; have := Bool.toNat_le a.sd; have := Bool.toNat_le a.s1; have := Bool.toNat_le a.s2
  have := a.ostep.isLt; have := a.sc.isLt
  simp only [Fits, encRep, encHead]; omega

theorem WordFits.endOfKernel : WordFits.Statement .endOfKernel := fun _ h => Option.some.inj h ▸ (.inr ⟨rfl, by decide⟩)
theorem WordFits.add (a : RArgs) : WordFits.Statement (.add a) := fun _ h => Option.some.inj h ▸ (fits_encR _ _ a (by decide) (by decide))
theorem WordFits.sub (a : RArgs) : WordFits.Statement (.sub a) := fun _ h => Option.some.inj h ▸ (fits_encR _ _ a (by decide) (by decide))
theorem WordFits.and (a : RArgs) : WordFits.Statement (.and a) := fun _ h => Option.some.inj h ▸ (fits_encR _ _ a (by decide) (by decide))
theorem WordFits.or (a : RArgs) : WordFits.Statement (.or a) := fun _ h => Option.some.inj h ▸ (fits_encR _ _ a (by decide) (by decide))
theorem WordFits.xor (a : RArgs) : WordFits.Statement (.xor a) := fun _ h => Option.some.inj h ▸ (fits_encR _ _ a (by decide) (by decide))
theorem WordFits.sll (a : RArgs) : WordFits.Statement (.sll a) := fun _ h => Option.some.inj h ▸ (fits_encR _ _ a (by decide) (by decide))
theorem WordFits.srl (a : RArgs) : WordFits.Statement (.srl a) := fun _ h => Option.some.inj h ▸ (fits_encR _ _ a (by decide) (by decide))
theorem WordFits.sra (a : RArgs) : WordFits.Statement (.sra a) := fun _ h => Option.some.inj h ▸ (fits_encR _ _ a (by decide) (by decide))
theorem WordFits.rol (a : RArgs) : WordFits.Statement (.rol a) := fun _ h => Option.some.inj h ▸ (fits_encR _ _ a (by decide) (by decide))
theorem WordFits.ror (a : RArgs) : WordFits.Statement (.ror a) := fun _ h => Option.some.inj h ▸ (fits_encR _ _ a (by decide) (by decide))
theorem WordFits.slt (a : RArgs) : WordFits.Statement (.slt a) := fun _ h => Option.some.inj h ▸ (fits_encR _ _ a (by decide) (by decide))
theorem WordFits.sltn (a : RArgs) : WordFits.Statement (.sltn a) := fun _ h => Option.some.inj h ▸ (fits_encR _ _ a (by decide) (by decide))
theorem WordFits.min (a : RArgs) : WordFits.Statement (.min a) := fun _ h => Option.some.inj h ▸ (fits_encR _ _ a (by decide) (by decide))
theorem WordFits.max (a : RArgs) : WordFits.Statement (.max a) := fun _ h => Option.some.inj h ▸ (fits_encR _ _ a (by decide) (by decide))
theorem WordFits.minn (a : RArgs) : WordFits.Statement (.minn a) := fun _ h => Option.some.inj h ▸ (fits_encR _ _ a (by decide) (by decide))
theorem WordFits.maxn (a : RArgs) : WordFits.Statement (.maxn a) := fun _ h => Option.some.inj h ▸ (fits_encR _ _ a (by decide) (by decide))
theorem WordFits.mul (a : RArgs) : WordFits.Statement (.mul a) := fun _ h => Option.some.inj h ▸ (fits_encR _ _ a (by decide) (by decide))
theorem WordFits.mulh (a : RArgs) : WordFits.Statement (.mulh a) := fun _ h => Option.some.inj h ▸ (fits_encR _ _ a (by decide) (by decide))
theorem WordFits.mulhn (a : RArgs) : WordFits.Statement (.mulhn a) := fun _ h => Option.some.inj h ▸ (fits_encR _ _ a (by decide) (by decide))
theorem WordFits.div (a : RArgs) : WordFits.Statement (.div a) := fun _ h => Option.some.inj h ▸ (fits_encR _ _ a (by decide) (by decide))
theorem WordFits.divn (a : RArgs) : WordFits.Statement (.divn a) := fun _ h => Option.some.inj h ▸ (fits_encR _ _ a (by decide) (by decide))
theorem WordFits.rem (a : RArgs) : WordFits.Statement (.rem a) := fun _ h => Option.some.inj h ▸ (fits_encR _ _ a (by decide) (by decide))
theorem WordFits.remn (a : RArgs) : WordFits.Statement (.remn a) := fun _ h => Option.some.inj h ▸ (fits_encR _ _ a (by decide) (by decide))
theorem WordFits.clz (a : RArgs) : WordFits.Statement (.clz a) := fun _ h => Option.some.inj h ▸ (fits_encR _ _ a (by decide) (by decide))
theorem WordFits.ctz (a : RArgs) : WordFits.Statement (.ctz a) := fun _ h => Option.some.inj h ▸ (fits_encR _ _ a (by decide) (by decide))
theorem WordFits.popc (a : RArgs) : WordFits.Statement (.popc a) := fun _ h => Option.some.inj h ▸ (fits_encR _ _ a (by decide) (by decide))
theorem WordFits.addi (a : IArgs) : WordFits.Statement (.addi a) := fun _ h => Option.some.inj h ▸ (fits_encI _ _ a (by decide) (by decide))
theorem WordFits.andi (a : IArgs) : WordFits.Statement (.andi a) := fun _ h => Option.some.inj h ▸ (fits_encI _ _ a (by decide) (by decide))
theorem WordFits.ori (a : IArgs) : WordFits.Statement (.ori a) := fun _ h => Option.some.inj h ▸ (fits_encI _ _ a (by decide) (by decide))
theorem WordFits.xori (a : IArgs) : WordFits.Statement (.xori a) := fun _ h => Option.some.inj h ▸ (fits_encI _ _ a (by decide) (by decide))
theorem WordFits.slli (a : IArgs) : WordFits.Statement (.slli a) := fun _ h => Option.some.inj h ▸ (fits_encI _ _ a (by decide) (by decide))
theorem WordFits.srli (a : IArgs) : WordFits.Statement (.srli a) := fun _ h => Option.some.inj h ▸ (fits_encI _ _ a (by decide) (by decide))
theorem WordFits.srai (a : IArgs) : WordFits.Statement (.srai a) := fun _ h => Option.some.inj h ▸ (fits_encI _ _ a (by decide) (by decide))
theorem WordFits.slti (a : IArgs) : WordFits.Statement (.slti a) := fun _ h => Option.some.inj h ▸ (fits_encI _ _ a (by decide) (by decide))
theorem WordFits.lui (a : UArgs) : WordFits.Statement (.lui a) := fun _ h => Option.some.inj h ▸ (by have := a.rd.isLt; have := a.imm.isLt; have := a.sc.isLt; simp only [Fits, encHead]; omega)
theorem WordFits.fadd (a : FArgs) : WordFits.Statement (.fadd a) := fun _ h => Option.some.inj h ▸ (fits_encF _ a (by decide))
theorem WordFits.fsub (a : FArgs) : WordFits.Statement (.fsub a) := fun _ h => Option.some.inj h ▸ (fits_encF _ a (by decide))
theorem WordFits.fmul (a : FArgs) : WordFits.Statement (.fmul a) := fun _ h => Option.some.inj h ▸ (fits_encF _ a (by decide))
theorem WordFits.ffma (a : FArgs) : WordFits.Statement (.ffma a) := fun _ h => Option.some.inj h ▸ (fits_encF _ a (by decide))
theorem WordFits.fdiv (a : FArgs) : WordFits.Statement (.fdiv a) := fun _ h => Option.some.inj h ▸ (fits_encF _ a (by decide))
theorem WordFits.fsqrt (a : FArgs) : WordFits.Statement (.fsqrt a) := fun _ h => Option.some.inj h ▸ (fits_encF _ a (by decide))
theorem WordFits.fmin (a : FArgs) : WordFits.Statement (.fmin a) := fun _ h => Option.some.inj h ▸ (fits_encF _ a (by decide))
theorem WordFits.fmax (a : FArgs) : WordFits.Statement (.fmax a) := fun _ h => Option.some.inj h ▸ (fits_encF _ a (by decide))
theorem WordFits.fcmpEq (a : FArgs) : WordFits.Statement (.fcmpEq a) := fun _ h => Option.some.inj h ▸ (fits_encF _ a (by decide))
theorem WordFits.fcmpLt (a : FArgs) : WordFits.Statement (.fcmpLt a) := fun _ h => Option.some.inj h ▸ (fits_encF _ a (by decide))
theorem WordFits.fcmpLe (a : FArgs) : WordFits.Statement (.fcmpLe a) := fun _ h => Option.some.inj h ▸ (fits_encF _ a (by decide))
theorem WordFits.fcvt (a : CvtArgs) : WordFits.Statement (.fcvt a) := fun _ h => Option.some.inj h ▸ (fits_encCvt a)
theorem WordFits.beq (a : SArgs) : WordFits.Statement (.beq a) := fun _ h => Option.some.inj h ▸ (fits_encS _ _ a (by decide) (by decide))
theorem WordFits.bne (a : SArgs) : WordFits.Statement (.bne a) := fun _ h => Option.some.inj h ▸ (fits_encS _ _ a (by decide) (by decide))
theorem WordFits.blt (a : SArgs) : WordFits.Statement (.blt a) := fun _ h => Option.some.inj h ▸ (fits_encS _ _ a (by decide) (by decide))
theorem WordFits.bge (a : SArgs) : WordFits.Statement (.bge a) := fun _ h => Option.some.inj h ▸ (fits_encS _ _ a (by decide) (by decide))
theorem WordFits.bltn (a : SArgs) : WordFits.Statement (.bltn a) := fun _ h => Option.some.inj h ▸ (fits_encS _ _ a (by decide) (by decide))
theorem WordFits.bgen (a : SArgs) : WordFits.Statement (.bgen a) := fun _ h => Option.some.inj h ▸ (fits_encS _ _ a (by decide) (by decide))
theorem WordFits.jal (a : JArgs) : WordFits.Statement (.jal a) := fun _ h => Option.some.inj h ▸ (by have := a.off.isLt; have := a.sc.isLt; simp only [Fits, encHead]; omega)
theorem WordFits.jalc (a : IArgs) : WordFits.Statement (.jalc a) := fun _ h => Option.some.inj h ▸ (fits_encI _ _ a (by decide) (by decide))
theorem WordFits.tend (a : IArgs) : WordFits.Statement (.tend a) := fun _ h => Option.some.inj h ▸ (fits_encI _ _ a (by decide) (by decide))
theorem WordFits.ecall (a : IArgs) : WordFits.Statement (.ecall a) := fun _ h => Option.some.inj h ▸ (fits_encI _ _ a (by decide) (by decide))
theorem WordFits.ebreak (a : IArgs) : WordFits.Statement (.ebreak a) := fun _ h => Option.some.inj h ▸ (fits_encI _ _ a (by decide) (by decide))
theorem WordFits.nop (a : IArgs) : WordFits.Statement (.nop a) := fun _ h => Option.some.inj h ▸ (fits_encI _ _ a (by decide) (by decide))
theorem WordFits.rep (a : RepArgs) : WordFits.Statement (.rep a) := fun _ h => Option.some.inj h ▸ (fits_encRep a)
theorem WordFits.lb (a : IArgs) : WordFits.Statement (.lb a) := fun _ h => Option.some.inj h ▸ (fits_encI _ _ a (by decide) (by decide))
theorem WordFits.lh (a : IArgs) : WordFits.Statement (.lh a) := fun _ h => Option.some.inj h ▸ (fits_encI _ _ a (by decide) (by decide))
theorem WordFits.lw (a : IArgs) : WordFits.Statement (.lw a) := fun _ h => Option.some.inj h ▸ (fits_encI _ _ a (by decide) (by decide))
theorem WordFits.ld (a : IArgs) : WordFits.Statement (.ld a) := fun _ h => Option.some.inj h ▸ (fits_encI _ _ a (by decide) (by decide))
theorem WordFits.lbn (a : IArgs) : WordFits.Statement (.lbn a) := fun _ h => Option.some.inj h ▸ (fits_encI _ _ a (by decide) (by decide))
theorem WordFits.lhn (a : IArgs) : WordFits.Statement (.lhn a) := fun _ h => Option.some.inj h ▸ (fits_encI _ _ a (by decide) (by decide))
theorem WordFits.lwn (a : IArgs) : WordFits.Statement (.lwn a) := fun _ h => Option.some.inj h ▸ (fits_encI _ _ a (by decide) (by decide))
theorem WordFits.sb (a : SArgs) : WordFits.Statement (.sb a) := fun _ h => Option.some.inj h ▸ (fits_encS _ _ a (by decide) (by decide))
theorem WordFits.sh (a : SArgs) : WordFits.Statement (.sh a) := fun _ h => Option.some.inj h ▸ (fits_encS _ _ a (by decide) (by decide))
theorem WordFits.sw (a : SArgs) : WordFits.Statement (.sw a) := fun _ h => Option.some.inj h ▸ (fits_encS _ _ a (by decide) (by decide))
theorem WordFits.sd (a : SArgs) : WordFits.Statement (.sd a) := fun _ h => Option.some.inj h ▸ (fits_encS _ _ a (by decide) (by decide))
theorem WordFits.lde (a : MArgs) : WordFits.Statement (.lde a) := fun _ h => Option.some.inj h ▸ (fits_encM _ _ a (by decide) (by decide))
theorem WordFits.ste (a : MArgs) : WordFits.Statement (.ste a) := fun _ h => Option.some.inj h ▸ (fits_encM _ _ a (by decide) (by decide))
theorem WordFits.lc (a : VfArgs) : WordFits.Statement (.lc a) := fun _ h => Option.some.inj h ▸ (fits_encVE _ _ _ _ _ _ _ _ (by decide) a.vd.isLt a.vs1.isLt a.vs2.isLt a.pg.isLt (by decide))
theorem WordFits.sc (a : VfArgs) : WordFits.Statement (.sc a) := fun _ h => Option.some.inj h ▸ (fits_encVE _ _ _ _ _ _ _ _ (by decide) a.vd.isLt a.vs1.isLt a.vs2.isLt a.pg.isLt (by decide))
theorem WordFits.vle (a : VfArgs) : WordFits.Statement (.vle a) := fun _ h => Option.some.inj h ▸ (fits_encVE _ _ _ _ _ _ _ _ (by decide) a.vd.isLt a.vs1.isLt a.vs2.isLt a.pg.isLt (by decide))
theorem WordFits.vse (a : VfArgs) : WordFits.Statement (.vse a) := fun _ h => Option.some.inj h ▸ (fits_encVE _ _ _ _ _ _ _ _ (by decide) a.vd.isLt a.vs1.isLt a.vs2.isLt a.pg.isLt (by decide))
theorem WordFits.vlse (a : VfArgs) : WordFits.Statement (.vlse a) := fun _ h => Option.some.inj h ▸ (fits_encVE _ _ _ _ _ _ _ _ (by decide) a.vd.isLt a.vs1.isLt a.vs2.isLt a.pg.isLt (by decide))
theorem WordFits.vlxe (a : VfArgs) : WordFits.Statement (.vlxe a) := fun _ h => Option.some.inj h ▸ (fits_encVE _ _ _ _ _ _ _ _ (by decide) a.vd.isLt a.vs1.isLt a.vs2.isLt a.pg.isLt (by decide))
theorem WordFits.vsxe (a : VfArgs) : WordFits.Statement (.vsxe a) := fun _ h => Option.some.inj h ▸ (fits_encVE _ _ _ _ _ _ _ _ (by decide) a.vd.isLt a.vs1.isLt a.vs2.isLt a.pg.isLt (by decide))
theorem WordFits.amoadd (a : AArgs) : WordFits.Statement (.amoadd a) := fun _ h => Option.some.inj h ▸ (fits_encA _ a (by decide))
theorem WordFits.amoand (a : AArgs) : WordFits.Statement (.amoand a) := fun _ h => Option.some.inj h ▸ (fits_encA _ a (by decide))
theorem WordFits.amoor (a : AArgs) : WordFits.Statement (.amoor a) := fun _ h => Option.some.inj h ▸ (fits_encA _ a (by decide))
theorem WordFits.amoxor (a : AArgs) : WordFits.Statement (.amoxor a) := fun _ h => Option.some.inj h ▸ (fits_encA _ a (by decide))
theorem WordFits.amomin (a : AArgs) : WordFits.Statement (.amomin a) := fun _ h => Option.some.inj h ▸ (fits_encA _ a (by decide))
theorem WordFits.amomax (a : AArgs) : WordFits.Statement (.amomax a) := fun _ h => Option.some.inj h ▸ (fits_encA _ a (by decide))
theorem WordFits.amominn (a : AArgs) : WordFits.Statement (.amominn a) := fun _ h => Option.some.inj h ▸ (fits_encA _ a (by decide))
theorem WordFits.amomaxn (a : AArgs) : WordFits.Statement (.amomaxn a) := fun _ h => Option.some.inj h ▸ (fits_encA _ a (by decide))
theorem WordFits.amoswap (a : AArgs) : WordFits.Statement (.amoswap a) := fun _ h => Option.some.inj h ▸ (fits_encA _ a (by decide))
theorem WordFits.amocas (a : AArgs) : WordFits.Statement (.amocas a) := fun _ h => Option.some.inj h ▸ (fits_encA _ a (by decide))
theorem WordFits.amofadd (a : AArgs) : WordFits.Statement (.amofadd a) := fun _ h => Option.some.inj h ▸ (fits_encA _ a (by decide))
theorem WordFits.ldAcq (a : AArgs) : WordFits.Statement (.ldAcq a) := fun _ h => Option.some.inj h ▸ (fits_encA _ a (by decide))
theorem WordFits.stRel (a : AArgs) : WordFits.Statement (.stRel a) := fun _ h => Option.some.inj h ▸ (fits_encA _ a (by decide))
theorem WordFits.fence (a : AArgs) : WordFits.Statement (.fence a) := fun _ h => Option.some.inj h ▸ (fits_encA _ a (by decide))
theorem WordFits.lds (a : RArgs) : WordFits.Statement (.lds a) := fun _ h => Option.some.inj h ▸ (fits_encR _ _ a (by decide) (by decide))
theorem WordFits.sts (a : RArgs) : WordFits.Statement (.sts a) := fun _ h => Option.some.inj h ▸ (fits_encR _ _ a (by decide) (by decide))
theorem WordFits.ldf (a : RArgs) : WordFits.Statement (.ldf a) := fun _ h => Option.some.inj h ▸ (fits_encR _ _ a (by decide) (by decide))
theorem WordFits.setfe (a : RArgs) : WordFits.Statement (.setfe a) := fun _ h => Option.some.inj h ▸ (fits_encR _ _ a (by decide) (by decide))
theorem WordFits.waita (a : RArgs) : WordFits.Statement (.waita a) := fun _ h => Option.some.inj h ▸ (fits_encR _ _ a (by decide) (by decide))
theorem WordFits.movg (a : RArgs) : WordFits.Statement (.movg a) := fun _ h => Option.some.inj h ▸ (fits_encR _ _ a (by decide) (by decide))
theorem WordFits.movfg (a : RArgs) : WordFits.Statement (.movfg a) := fun _ h => Option.some.inj h ▸ (fits_encR _ _ a (by decide) (by decide))
theorem WordFits.rdef (a : RArgs) : WordFits.Statement (.rdef a) := fun _ h => Option.some.inj h ▸ (fits_encR _ _ a (by decide) (by decide))
theorem WordFits.rtag (a : RArgs) : WordFits.Statement (.rtag a) := fun _ h => Option.some.inj h ▸ (fits_encR _ _ a (by decide) (by decide))
theorem WordFits.rdrop (a : RArgs) : WordFits.Statement (.rdrop a) := fun _ h => Option.some.inj h ▸ (fits_encR _ _ a (by decide) (by decide))
theorem WordFits.rpin (a : RArgs) : WordFits.Statement (.rpin a) := fun _ h => Option.some.inj h ▸ (fits_encR _ _ a (by decide) (by decide))
theorem WordFits.rinv (a : RArgs) : WordFits.Statement (.rinv a) := fun _ h => Option.some.inj h ▸ (fits_encR _ _ a (by decide) (by decide))
theorem WordFits.cslice (a : RArgs) : WordFits.Statement (.cslice a) := fun _ h => Option.some.inj h ▸ (fits_encR _ _ a (by decide) (by decide))
theorem WordFits.cstep (a : RArgs) : WordFits.Statement (.cstep a) := fun _ h => Option.some.inj h ▸ (fits_encR _ _ a (by decide) (by decide))
theorem WordFits.cflip (a : RArgs) : WordFits.Statement (.cflip a) := fun _ h => Option.some.inj h ▸ (fits_encR _ _ a (by decide) (by decide))
theorem WordFits.cperm (a : RArgs) : WordFits.Statement (.cperm a) := fun _ h => Option.some.inj h ▸ (fits_encR _ _ a (by decide) (by decide))
theorem WordFits.csplit (a : RArgs) : WordFits.Statement (.csplit a) := fun _ h => Option.some.inj h ▸ (fits_encR _ _ a (by decide) (by decide))
theorem WordFits.cmerge (a : RArgs) : WordFits.Statement (.cmerge a) := fun _ h => Option.some.inj h ▸ (fits_encR _ _ a (by decide) (by decide))
theorem WordFits.cfix (a : RArgs) : WordFits.Statement (.cfix a) := fun _ h => Option.some.inj h ▸ (fits_encR _ _ a (by decide) (by decide))
theorem WordFits.cbcast (a : RArgs) : WordFits.Statement (.cbcast a) := fun _ h => Option.some.inj h ▸ (fits_encR _ _ a (by decide) (by decide))
theorem WordFits.candp (a : RArgs) : WordFits.Statement (.candp a) := fun _ h => Option.some.inj h ▸ (fits_encR _ _ a (by decide) (by decide))
theorem WordFits.creach (a : RArgs) : WordFits.Statement (.creach a) := fun _ h => Option.some.inj h ▸ (fits_encR _ _ a (by decide) (by decide))
theorem WordFits.cretag (a : RArgs) : WordFits.Statement (.cretag a) := fun _ h => Option.some.inj h ▸ (fits_encR _ _ a (by decide) (by decide))
theorem WordFits.cmove (a : RArgs) : WordFits.Statement (.cmove a) := fun _ h => Option.some.inj h ▸ (fits_encR _ _ a (by decide) (by decide))
theorem WordFits.cclear (a : RArgs) : WordFits.Statement (.cclear a) := fun _ h => Option.some.inj h ▸ (fits_encR _ _ a (by decide) (by decide))
theorem WordFits.cgetf (a : RArgs) : WordFits.Statement (.cgetf a) := fun _ h => Option.some.inj h ▸ (fits_encR _ _ a (by decide) (by decide))
theorem WordFits.ctest (a : RArgs) : WordFits.Statement (.ctest a) := fun _ h => Option.some.inj h ▸ (fits_encR _ _ a (by decide) (by decide))
theorem WordFits.csubset (a : RArgs) : WordFits.Statement (.csubset a) := fun _ h => Option.some.inj h ▸ (fits_encR _ _ a (by decide) (by decide))
theorem WordFits.ceq (a : RArgs) : WordFits.Statement (.ceq a) := fun _ h => Option.some.inj h ▸ (fits_encR _ _ a (by decide) (by decide))
theorem WordFits.cbind (a : RArgs) : WordFits.Statement (.cbind a) := fun _ h => Option.some.inj h ▸ (fits_encR _ _ a (by decide) (by decide))
theorem WordFits.cunbind (a : RArgs) : WordFits.Statement (.cunbind a) := fun _ h => Option.some.inj h ▸ (fits_encR _ _ a (by decide) (by decide))
theorem WordFits.ccall (a : RArgs) : WordFits.Statement (.ccall a) := fun _ h => Option.some.inj h ▸ (fits_encR _ _ a (by decide) (by decide))
theorem WordFits.cret (a : RArgs) : WordFits.Statement (.cret a) := fun _ h => Option.some.inj h ▸ (fits_encR _ _ a (by decide) (by decide))
theorem WordFits.ckey (a : RArgs) : WordFits.Statement (.ckey a) := fun _ h => Option.some.inj h ▸ (fits_encR _ _ a (by decide) (by decide))
theorem WordFits.vadd (a : VArgs) : WordFits.Statement (.vadd a) := fun _ h => Option.some.inj h ▸ (fits_encVE _ _ _ _ _ _ _ _ (by decide) a.vd.isLt a.vs1.isLt a.vs2.isLt a.pg.isLt a.f2.isLt)
theorem WordFits.vsub (a : VArgs) : WordFits.Statement (.vsub a) := fun _ h => Option.some.inj h ▸ (fits_encVE _ _ _ _ _ _ _ _ (by decide) a.vd.isLt a.vs1.isLt a.vs2.isLt a.pg.isLt a.f2.isLt)
theorem WordFits.vmul (a : VArgs) : WordFits.Statement (.vmul a) := fun _ h => Option.some.inj h ▸ (fits_encVE _ _ _ _ _ _ _ _ (by decide) a.vd.isLt a.vs1.isLt a.vs2.isLt a.pg.isLt a.f2.isLt)
theorem WordFits.vfma (a : VArgs) : WordFits.Statement (.vfma a) := fun _ h => Option.some.inj h ▸ (fits_encVE _ _ _ _ _ _ _ _ (by decide) a.vd.isLt a.vs1.isLt a.vs2.isLt a.pg.isLt a.f2.isLt)
theorem WordFits.vfms (a : VArgs) : WordFits.Statement (.vfms a) := fun _ h => Option.some.inj h ▸ (fits_encVE _ _ _ _ _ _ _ _ (by decide) a.vd.isLt a.vs1.isLt a.vs2.isLt a.pg.isLt a.f2.isLt)
theorem WordFits.vdiv (a : VArgs) : WordFits.Statement (.vdiv a) := fun _ h => Option.some.inj h ▸ (fits_encVE _ _ _ _ _ _ _ _ (by decide) a.vd.isLt a.vs1.isLt a.vs2.isLt a.pg.isLt a.f2.isLt)
theorem WordFits.vmin (a : VArgs) : WordFits.Statement (.vmin a) := fun _ h => Option.some.inj h ▸ (fits_encVE _ _ _ _ _ _ _ _ (by decide) a.vd.isLt a.vs1.isLt a.vs2.isLt a.pg.isLt a.f2.isLt)
theorem WordFits.vmax (a : VArgs) : WordFits.Statement (.vmax a) := fun _ h => Option.some.inj h ▸ (fits_encVE _ _ _ _ _ _ _ _ (by decide) a.vd.isLt a.vs1.isLt a.vs2.isLt a.pg.isLt a.f2.isLt)
theorem WordFits.vsqrt (a : VuArgs) : WordFits.Statement (.vsqrt a) := fun _ h => Option.some.inj h ▸ (fits_encVE _ _ _ _ _ _ _ _ (by decide) a.vd.isLt a.vs1.isLt (by decide) a.pg.isLt a.f2.isLt)
theorem WordFits.vrsq (a : VuArgs) : WordFits.Statement (.vrsq a) := fun _ h => Option.some.inj h ▸ (fits_encVE _ _ _ _ _ _ _ _ (by decide) a.vd.isLt a.vs1.isLt (by decide) a.pg.isLt a.f2.isLt)
theorem WordFits.vrcp (a : VuArgs) : WordFits.Statement (.vrcp a) := fun _ h => Option.some.inj h ▸ (fits_encVE _ _ _ _ _ _ _ _ (by decide) a.vd.isLt a.vs1.isLt (by decide) a.pg.isLt a.f2.isLt)
theorem WordFits.vabs (a : VuArgs) : WordFits.Statement (.vabs a) := fun _ h => Option.some.inj h ▸ (fits_encVE _ _ _ _ _ _ _ _ (by decide) a.vd.isLt a.vs1.isLt (by decide) a.pg.isLt a.f2.isLt)
theorem WordFits.vneg (a : VuArgs) : WordFits.Statement (.vneg a) := fun _ h => Option.some.inj h ▸ (fits_encVE _ _ _ _ _ _ _ _ (by decide) a.vd.isLt a.vs1.isLt (by decide) a.pg.isLt a.f2.isLt)
theorem WordFits.vexp (a : VuArgs) : WordFits.Statement (.vexp a) := fun _ h => Option.some.inj h ▸ (fits_encVE _ _ _ _ _ _ _ _ (by decide) a.vd.isLt a.vs1.isLt (by decide) a.pg.isLt a.f2.isLt)
theorem WordFits.vexp2 (a : VuArgs) : WordFits.Statement (.vexp2 a) := fun _ h => Option.some.inj h ▸ (fits_encVE _ _ _ _ _ _ _ _ (by decide) a.vd.isLt a.vs1.isLt (by decide) a.pg.isLt a.f2.isLt)
theorem WordFits.vlog2 (a : VuArgs) : WordFits.Statement (.vlog2 a) := fun _ h => Option.some.inj h ▸ (fits_encVE _ _ _ _ _ _ _ _ (by decide) a.vd.isLt a.vs1.isLt (by decide) a.pg.isLt a.f2.isLt)
theorem WordFits.vdot (a : VArgs) : WordFits.Statement (.vdot a) := fun _ h => Option.some.inj h ▸ (fits_encVE _ _ _ _ _ _ _ _ (by decide) a.vd.isLt a.vs1.isLt a.vs2.isLt a.pg.isLt a.f2.isLt)
theorem WordFits.vsll (a : VfArgs) : WordFits.Statement (.vsll a) := fun _ h => Option.some.inj h ▸ (fits_encVE _ _ _ _ _ _ _ _ (by decide) a.vd.isLt a.vs1.isLt a.vs2.isLt a.pg.isLt (by decide))
theorem WordFits.vsrl (a : VfArgs) : WordFits.Statement (.vsrl a) := fun _ h => Option.some.inj h ▸ (fits_encVE _ _ _ _ _ _ _ _ (by decide) a.vd.isLt a.vs1.isLt a.vs2.isLt a.pg.isLt (by decide))
theorem WordFits.vsra (a : VfArgs) : WordFits.Statement (.vsra a) := fun _ h => Option.some.inj h ▸ (fits_encVE _ _ _ _ _ _ _ _ (by decide) a.vd.isLt a.vs1.isLt a.vs2.isLt a.pg.isLt (by decide))
theorem WordFits.vand (a : VfArgs) : WordFits.Statement (.vand a) := fun _ h => Option.some.inj h ▸ (fits_encVE _ _ _ _ _ _ _ _ (by decide) a.vd.isLt a.vs1.isLt a.vs2.isLt a.pg.isLt (by decide))
theorem WordFits.vor (a : VfArgs) : WordFits.Statement (.vor a) := fun _ h => Option.some.inj h ▸ (fits_encVE _ _ _ _ _ _ _ _ (by decide) a.vd.isLt a.vs1.isLt a.vs2.isLt a.pg.isLt (by decide))
theorem WordFits.vxor (a : VfArgs) : WordFits.Statement (.vxor a) := fun _ h => Option.some.inj h ▸ (fits_encVE _ _ _ _ _ _ _ _ (by decide) a.vd.isLt a.vs1.isLt a.vs2.isLt a.pg.isLt (by decide))
theorem WordFits.vsel (a : VfArgs) : WordFits.Statement (.vsel a) := fun _ h => Option.some.inj h ▸ (fits_encVE _ _ _ _ _ _ _ _ (by decide) a.vd.isLt a.vs1.isLt a.vs2.isLt a.pg.isLt (by decide))
theorem WordFits.vcvt (a : VArgs) : WordFits.Statement (.vcvt a) := fun _ h => Option.some.inj h ▸ (fits_encVE _ _ _ _ _ _ _ _ (by decide) a.vd.isLt a.vs1.isLt a.vs2.isLt a.pg.isLt a.f2.isLt)
theorem WordFits.vcvtSat (a : VArgs) : WordFits.Statement (.vcvtSat a) := fun _ h => Option.some.inj h ▸ (fits_encVE _ _ _ _ _ _ _ _ (by decide) a.vd.isLt a.vs1.isLt a.vs2.isLt a.pg.isLt a.f2.isLt)
theorem WordFits.vperm (a : VArgs) : WordFits.Statement (.vperm a) := fun _ h => Option.some.inj h ▸ (fits_encVE _ _ _ _ _ _ _ _ (by decide) a.vd.isLt a.vs1.isLt a.vs2.isLt a.pg.isLt a.f2.isLt)
theorem WordFits.vslide (a : VuArgs) : WordFits.Statement (.vslide a) := fun _ h => Option.some.inj h ▸ (fits_encVE _ _ _ _ _ _ _ _ (by decide) a.vd.isLt a.vs1.isLt (by decide) a.pg.isLt a.f2.isLt)
theorem WordFits.vbcast (a : VuArgs) : WordFits.Statement (.vbcast a) := fun _ h => Option.some.inj h ▸ (fits_encVE _ _ _ _ _ _ _ _ (by decide) a.vd.isLt a.vs1.isLt (by decide) a.pg.isLt a.f2.isLt)
theorem WordFits.vmovx (a : VuArgs) : WordFits.Statement (.vmovx a) := fun _ h => Option.some.inj h ▸ (fits_encVE _ _ _ _ _ _ _ _ (by decide) a.vd.isLt a.vs1.isLt (by decide) a.pg.isLt a.f2.isLt)
theorem WordFits.viota (a : VuArgs) : WordFits.Statement (.viota a) := fun _ h => Option.some.inj h ▸ (fits_encVE _ _ _ _ _ _ _ _ (by decide) a.vd.isLt a.vs1.isLt (by decide) a.pg.isLt a.f2.isLt)
theorem WordFits.vcmp (a : VArgs) : WordFits.Statement (.vcmp a) := fun _ h => Option.some.inj h ▸ (fits_encVE _ _ _ _ _ _ _ _ (by decide) a.vd.isLt a.vs1.isLt a.vs2.isLt a.pg.isLt a.f2.isLt)
theorem WordFits.vred (a : VArgs) : WordFits.Statement (.vred a) := fun _ h => Option.some.inj h ▸ (fits_encVE _ _ _ _ _ _ _ _ (by decide) a.vd.isLt a.vs1.isLt a.vs2.isLt a.pg.isLt a.f2.isLt)
theorem WordFits.pand (a : VpArgs) : WordFits.Statement (.pand a) := fun _ h => Option.some.inj h ▸ (fits_encVE _ _ _ _ _ _ _ _ (by decide) a.vd.isLt a.vs1.isLt a.vs2.isLt (by decide) a.f2.isLt)
theorem WordFits.por (a : VpArgs) : WordFits.Statement (.por a) := fun _ h => Option.some.inj h ▸ (fits_encVE _ _ _ _ _ _ _ _ (by decide) a.vd.isLt a.vs1.isLt a.vs2.isLt (by decide) a.f2.isLt)
theorem WordFits.pxor (a : VpArgs) : WordFits.Statement (.pxor a) := fun _ h => Option.some.inj h ▸ (fits_encVE _ _ _ _ _ _ _ _ (by decide) a.vd.isLt a.vs1.isLt a.vs2.isLt (by decide) a.f2.isLt)
theorem WordFits.pnot (a : VpArgs) : WordFits.Statement (.pnot a) := fun _ h => Option.some.inj h ▸ (fits_encVE _ _ _ _ _ _ _ _ (by decide) a.vd.isLt a.vs1.isLt a.vs2.isLt (by decide) a.f2.isLt)
theorem WordFits.pfirst (a : VpArgs) : WordFits.Statement (.pfirst a) := fun _ h => Option.some.inj h ▸ (fits_encVE _ _ _ _ _ _ _ _ (by decide) a.vd.isLt a.vs1.isLt a.vs2.isLt (by decide) a.f2.isLt)
theorem WordFits.pcnt (a : VpArgs) : WordFits.Statement (.pcnt a) := fun _ h => Option.some.inj h ▸ (fits_encVE _ _ _ _ _ _ _ _ (by decide) a.vd.isLt a.vs1.isLt a.vs2.isLt (by decide) a.f2.isLt)
theorem WordFits.vwhile (a : VpArgs) : WordFits.Statement (.vwhile a) := fun _ h => Option.some.inj h ▸ (fits_encVE _ _ _ _ _ _ _ _ (by decide) a.vd.isLt a.vs1.isLt a.vs2.isLt (by decide) a.f2.isLt)
theorem WordFits.bpany (a : SArgs) : WordFits.Statement (.bpany a) := fun _ h => Option.some.inj h ▸ (fits_encS _ _ a (by decide) (by decide))
theorem WordFits.bpnone (a : SArgs) : WordFits.Statement (.bpnone a) := fun _ h => Option.some.inj h ▸ (fits_encS _ _ a (by decide) (by decide))
theorem WordFits.mwload (a : EfArgs) : WordFits.Statement (.mwload a) := fun _ h => Option.some.inj h ▸ (fits_encVE _ _ _ _ _ _ _ _ (by decide) a.ca.isLt a.cb.isLt a.xc.isLt a.q.isLt (by decide))
theorem WordFits.mzero (a : EfArgs) : WordFits.Statement (.mzero a) := fun _ h => Option.some.inj h ▸ (fits_encVE _ _ _ _ _ _ _ _ (by decide) a.ca.isLt a.cb.isLt a.xc.isLt a.q.isLt (by decide))
theorem WordFits.mstat (a : EfArgs) : WordFits.Statement (.mstat a) := fun _ h => Option.some.inj h ▸ (fits_encVE _ _ _ _ _ _ _ _ (by decide) a.ca.isLt a.cb.isLt a.xc.isLt a.q.isLt (by decide))
theorem WordFits.mma (a : EArgs) : WordFits.Statement (.mma a) := fun _ h => Option.some.inj h ▸ (fits_encVE _ _ _ _ _ _ _ _ (by decide) a.ca.isLt a.cb.isLt a.xc.isLt a.q.isLt a.f2.isLt)
theorem WordFits.mstore (a : EArgs) : WordFits.Statement (.mstore a) := fun _ h => Option.some.inj h ▸ (fits_encVE _ _ _ _ _ _ _ _ (by decide) a.ca.isLt a.cb.isLt a.xc.isLt a.q.isLt a.f2.isLt)
theorem WordFits.mrdrow (a : EqArgs) : WordFits.Statement (.mrdrow a) := fun _ h => Option.some.inj h ▸ (fits_encVE _ _ _ _ _ _ _ _ (by decide) a.ca.isLt a.cb.isLt a.xc.isLt (by decide) a.f2.isLt)
theorem WordFits.mwrrow (a : EqArgs) : WordFits.Statement (.mwrrow a) := fun _ h => Option.some.inj h ▸ (fits_encVE _ _ _ _ _ _ _ _ (by decide) a.ca.isLt a.cb.isLt a.xc.isLt (by decide) a.f2.isLt)
theorem WordFits.cpy (a : EfArgs) : WordFits.Statement (.cpy a) := fun _ h => Option.some.inj h ▸ (fits_encVE _ _ _ _ _ _ _ _ (by decide) a.ca.isLt a.cb.isLt a.xc.isLt a.q.isLt (by decide))
theorem WordFits.cpyw (a : EfArgs) : WordFits.Statement (.cpyw a) := fun _ h => Option.some.inj h ▸ (fits_encVE _ _ _ _ _ _ _ _ (by decide) a.ca.isLt a.cb.isLt a.xc.isLt a.q.isLt (by decide))
theorem WordFits.cpyb (a : EfArgs) : WordFits.Statement (.cpyb a) := fun _ h => Option.some.inj h ▸ (fits_encVE _ _ _ _ _ _ _ _ (by decide) a.ca.isLt a.cb.isLt a.xc.isLt a.q.isLt (by decide))
theorem WordFits.cpys (a : EfArgs) : WordFits.Statement (.cpys a) := fun _ h => Option.some.inj h ▸ (fits_encVE _ _ _ _ _ _ _ _ (by decide) a.ca.isLt a.cb.isLt a.xc.isLt a.q.isLt (by decide))
theorem WordFits.cpym (a : EfArgs) : WordFits.Statement (.cpym a) := fun _ h => Option.some.inj h ▸ (fits_encVE _ _ _ _ _ _ _ _ (by decide) a.ca.isLt a.cb.isLt a.xc.isLt a.q.isLt (by decide))
theorem WordFits.cpf (a : EfArgs) : WordFits.Statement (.cpf a) := fun _ h => Option.some.inj h ▸ (fits_encVE _ _ _ _ _ _ _ _ (by decide) a.ca.isLt a.cb.isLt a.xc.isLt a.q.isLt (by decide))
theorem WordFits.cfill (a : EfArgs) : WordFits.Statement (.cfill a) := fun _ h => Option.some.inj h ▸ (fits_encVE _ _ _ _ _ _ _ _ (by decide) a.ca.isLt a.cb.isLt a.xc.isLt a.q.isLt (by decide))
theorem WordFits.cpresume (a : EfArgs) : WordFits.Statement (.cpresume a) := fun _ h => Option.some.inj h ▸ (fits_encVE _ _ _ _ _ _ _ _ (by decide) a.ca.isLt a.cb.isLt a.xc.isLt a.q.isLt (by decide))
theorem WordFits.cpabort (a : EfArgs) : WordFits.Statement (.cpabort a) := fun _ h => Option.some.inj h ▸ (fits_encVE _ _ _ _ _ _ _ _ (by decide) a.ca.isLt a.cb.isLt a.xc.isLt a.q.isLt (by decide))
theorem WordFits.cpstat (a : EfArgs) : WordFits.Statement (.cpstat a) := fun _ h => Option.some.inj h ▸ (fits_encVE _ _ _ _ _ _ _ _ (by decide) a.ca.isLt a.cb.isLt a.xc.isLt a.q.isLt (by decide))
theorem WordFits.qfence (a : EfArgs) : WordFits.Statement (.qfence a) := fun _ h => Option.some.inj h ▸ (fits_encVE _ _ _ _ _ _ _ _ (by decide) a.ca.isLt a.cb.isLt a.xc.isLt a.q.isLt (by decide))
theorem WordFits.barinit (a : EqArgs) : WordFits.Statement (.barinit a) := fun _ h => Option.some.inj h ▸ (fits_encVE _ _ _ _ _ _ _ _ (by decide) a.ca.isLt a.cb.isLt a.xc.isLt (by decide) a.f2.isLt)
theorem WordFits.barexp (a : EqArgs) : WordFits.Statement (.barexp a) := fun _ h => Option.some.inj h ▸ (fits_encVE _ _ _ _ _ _ _ _ (by decide) a.ca.isLt a.cb.isLt a.xc.isLt (by decide) a.f2.isLt)
theorem WordFits.bararr (a : EqArgs) : WordFits.Statement (.bararr a) := fun _ h => Option.some.inj h ▸ (fits_encVE _ _ _ _ _ _ _ _ (by decide) a.ca.isLt a.cb.isLt a.xc.isLt (by decide) a.f2.isLt)
theorem WordFits.barwait (a : EqArgs) : WordFits.Statement (.barwait a) := fun _ h => Option.some.inj h ▸ (fits_encVE _ _ _ _ _ _ _ _ (by decide) a.ca.isLt a.cb.isLt a.xc.isLt (by decide) a.f2.isLt)
theorem WordFits.barflg (a : EqArgs) : WordFits.Statement (.barflg a) := fun _ h => Option.some.inj h ▸ (fits_encVE _ _ _ _ _ _ _ _ (by decide) a.ca.isLt a.cb.isLt a.xc.isLt (by decide) a.f2.isLt)
theorem WordFits.bankfmt (a : EqArgs) : WordFits.Statement (.bankfmt a) := fun _ h => Option.some.inj h ▸ (fits_encVE _ _ _ _ _ _ _ _ (by decide) a.ca.isLt a.cb.isLt a.xc.isLt (by decide) a.f2.isLt)
theorem WordFits.splock (a : EqArgs) : WordFits.Statement (.splock a) := fun _ h => Option.some.inj h ▸ (fits_encVE _ _ _ _ _ _ _ _ (by decide) a.ca.isLt a.cb.isLt a.xc.isLt (by decide) a.f2.isLt)
theorem WordFits.spunlock (a : EqArgs) : WordFits.Statement (.spunlock a) := fun _ h => Option.some.inj h ▸ (fits_encVE _ _ _ _ _ _ _ _ (by decide) a.ca.isLt a.cb.isLt a.xc.isLt (by decide) a.f2.isLt)
theorem WordFits.spawn (a : RArgs) : WordFits.Statement (.spawn a) := fun _ h => Option.some.inj h ▸ (fits_encR _ _ a (by decide) (by decide))
theorem WordFits.reap (a : RArgs) : WordFits.Statement (.reap a) := fun _ h => Option.some.inj h ▸ (fits_encR _ _ a (by decide) (by decide))
theorem WordFits.yield (a : RArgs) : WordFits.Statement (.yield a) := fun _ h => Option.some.inj h ▸ (fits_encR _ _ a (by decide) (by decide))
theorem WordFits.park (a : RArgs) : WordFits.Statement (.park a) := fun _ h => Option.some.inj h ▸ (fits_encR _ _ a (by decide) (by decide))
theorem WordFits.wake (a : RArgs) : WordFits.Statement (.wake a) := fun _ h => Option.some.inj h ▸ (fits_encR _ _ a (by decide) (by decide))
theorem WordFits.putr (a : RArgs) : WordFits.Statement (.putr a) := fun _ h => Option.some.inj h ▸ (fits_encR _ _ a (by decide) (by decide))
theorem WordFits.skjoin (a : RArgs) : WordFits.Statement (.skjoin a) := fun _ h => Option.some.inj h ▸ (fits_encR _ _ a (by decide) (by decide))
theorem WordFits.skleave (a : RArgs) : WordFits.Statement (.skleave a) := fun _ h => Option.some.inj h ▸ (fits_encR _ _ a (by decide) (by decide))
theorem WordFits.skbar (a : RArgs) : WordFits.Statement (.skbar a) := fun _ h => Option.some.inj h ▸ (fits_encR _ _ a (by decide) (by decide))
theorem WordFits.skquery (a : RArgs) : WordFits.Statement (.skquery a) := fun _ h => Option.some.inj h ▸ (fits_encR _ _ a (by decide) (by decide))
theorem WordFits.tlaunch (a : RArgs) : WordFits.Statement (.tlaunch a) := fun _ h => Option.some.inj h ▸ (fits_encR _ _ a (by decide) (by decide))
theorem WordFits.twait (a : RArgs) : WordFits.Statement (.twait a) := fun _ h => Option.some.inj h ▸ (fits_encR _ _ a (by decide) (by decide))
theorem WordFits.kvsub (a : RArgs) : WordFits.Statement (.kvsub a) := fun _ h => Option.some.inj h ▸ (fits_encR _ _ a (by decide) (by decide))
theorem WordFits.kvunsub (a : RArgs) : WordFits.Statement (.kvunsub a) := fun _ h => Option.some.inj h ▸ (fits_encR _ _ a (by decide) (by decide))
theorem WordFits.kvnext (a : RArgs) : WordFits.Statement (.kvnext a) := fun _ h => Option.some.inj h ▸ (fits_encR _ _ a (by decide) (by decide))
theorem WordFits.kvrel (a : RArgs) : WordFits.Statement (.kvrel a) := fun _ h => Option.some.inj h ▸ (fits_encR _ _ a (by decide) (by decide))
theorem WordFits.mgalloc (a : RArgs) : WordFits.Statement (.mgalloc a) := fun _ h => Option.some.inj h ▸ (fits_encR _ _ a (by decide) (by decide))
theorem WordFits.mgput (a : RArgs) : WordFits.Statement (.mgput a) := fun _ h => Option.some.inj h ▸ (fits_encR _ _ a (by decide) (by decide))
theorem WordFits.mgget (a : RArgs) : WordFits.Statement (.mgget a) := fun _ h => Option.some.inj h ▸ (fits_encR _ _ a (by decide) (by decide))
theorem WordFits.mgfree (a : RArgs) : WordFits.Statement (.mgfree a) := fun _ h => Option.some.inj h ▸ (fits_encR _ _ a (by decide) (by decide))
theorem WordFits.l2pin (a : RArgs) : WordFits.Statement (.l2pin a) := fun _ h => Option.some.inj h ▸ (fits_encR _ _ a (by decide) (by decide))
theorem WordFits.l2unpin (a : RArgs) : WordFits.Statement (.l2unpin a) := fun _ h => Option.some.inj h ▸ (fits_encR _ _ a (by decide) (by decide))
theorem WordFits.l2hint (a : RArgs) : WordFits.Statement (.l2hint a) := fun _ h => Option.some.inj h ▸ (fits_encR _ _ a (by decide) (by decide))
theorem WordFits.l2flush (a : RArgs) : WordFits.Statement (.l2flush a) := fun _ h => Option.some.inj h ▸ (fits_encR _ _ a (by decide) (by decide))
theorem WordFits.l2inv (a : RArgs) : WordFits.Statement (.l2inv a) := fun _ h => Option.some.inj h ▸ (fits_encR _ _ a (by decide) (by decide))
theorem WordFits.oalloc (a : RArgs) : WordFits.Statement (.oalloc a) := fun _ h => Option.some.inj h ▸ (fits_encR _ _ a (by decide) (by decide))
theorem WordFits.ofree (a : RArgs) : WordFits.Statement (.ofree a) := fun _ h => Option.some.inj h ▸ (fits_encR _ _ a (by decide) (by decide))
theorem WordFits.sweepgo (a : RArgs) : WordFits.Statement (.sweepgo a) := fun _ h => Option.some.inj h ▸ (fits_encR _ _ a (by decide) (by decide))
theorem WordFits.sweepstat (a : RArgs) : WordFits.Statement (.sweepstat a) := fun _ h => Option.some.inj h ▸ (fits_encR _ _ a (by decide) (by decide))
theorem WordFits.verstep (a : RArgs) : WordFits.Statement (.verstep a) := fun _ h => Option.some.inj h ▸ (fits_encR _ _ a (by decide) (by decide))
theorem WordFits.lncpy (a : RArgs) : WordFits.Statement (.lncpy a) := fun _ h => Option.some.inj h ▸ (fits_encR _ _ a (by decide) (by decide))
theorem WordFits.lnred (a : RArgs) : WordFits.Statement (.lnred a) := fun _ h => Option.some.inj h ▸ (fits_encR _ _ a (by decide) (by decide))
theorem WordFits.lnfence (a : RArgs) : WordFits.Statement (.lnfence a) := fun _ h => Option.some.inj h ▸ (fits_encR _ _ a (by decide) (by decide))
theorem WordFits.lnstat (a : RArgs) : WordFits.Statement (.lnstat a) := fun _ h => Option.some.inj h ▸ (fits_encR _ _ a (by decide) (by decide))
theorem WordFits.csrr (a : IArgs) : WordFits.Statement (.csrr a) := fun _ h => Option.some.inj h ▸ (fits_encI _ _ a (by decide) (by decide))
theorem WordFits.csrw (a : IArgs) : WordFits.Statement (.csrw a) := fun _ h => Option.some.inj h ▸ (fits_encI _ _ a (by decide) (by decide))
theorem WordFits.csrs (a : IArgs) : WordFits.Statement (.csrs a) := fun _ h => Option.some.inj h ▸ (fits_encI _ _ a (by decide) (by decide))
theorem WordFits.csrc (a : IArgs) : WordFits.Statement (.csrc a) := fun _ h => Option.some.inj h ▸ (fits_encI _ _ a (by decide) (by decide))
theorem WordFits.tret (a : IArgs) : WordFits.Statement (.tret a) := fun _ h => Option.some.inj h ▸ (fits_encI _ _ a (by decide) (by decide))
theorem WordFits.vaddF32C16 (a : C16Args) : WordFits.Statement (.vaddF32C16 a) := fun _ h => Option.some.inj h ▸ (fits_encC16 _ a (by decide))
theorem WordFits.vsubF32C16 (a : C16Args) : WordFits.Statement (.vsubF32C16 a) := fun _ h => Option.some.inj h ▸ (fits_encC16 _ a (by decide))
theorem WordFits.vmulF32C16 (a : C16Args) : WordFits.Statement (.vmulF32C16 a) := fun _ h => Option.some.inj h ▸ (fits_encC16 _ a (by decide))
theorem WordFits.vminF32C16 (a : C16Args) : WordFits.Statement (.vminF32C16 a) := fun _ h => Option.some.inj h ▸ (fits_encC16 _ a (by decide))
theorem WordFits.vmaxF32C16 (a : C16Args) : WordFits.Statement (.vmaxF32C16 a) := fun _ h => Option.some.inj h ▸ (fits_encC16 _ a (by decide))
theorem WordFits.vaddS32C16 (a : C16Args) : WordFits.Statement (.vaddS32C16 a) := fun _ h => Option.some.inj h ▸ (fits_encC16 _ a (by decide))
theorem WordFits.vsubS32C16 (a : C16Args) : WordFits.Statement (.vsubS32C16 a) := fun _ h => Option.some.inj h ▸ (fits_encC16 _ a (by decide))
theorem WordFits.vandC16 (a : C16Args) : WordFits.Statement (.vandC16 a) := fun _ h => Option.some.inj h ▸ (fits_encC16 _ a (by decide))
theorem WordFits.vorC16 (a : C16Args) : WordFits.Statement (.vorC16 a) := fun _ h => Option.some.inj h ▸ (fits_encC16 _ a (by decide))
theorem WordFits.vxorC16 (a : C16Args) : WordFits.Statement (.vxorC16 a) := fun _ h => Option.some.inj h ▸ (fits_encC16 _ a (by decide))
theorem WordFits.vmovC16 (a : C16Args) : WordFits.Statement (.vmovC16 a) := fun _ h => Option.some.inj h ▸ (fits_encC16 _ a (by decide))
theorem WordFits.vnegF32C16 (a : C16Args) : WordFits.Statement (.vnegF32C16 a) := fun _ h => Option.some.inj h ▸ (fits_encC16 _ a (by decide))
theorem WordFits.vabsF32C16 (a : C16Args) : WordFits.Statement (.vabsF32C16 a) := fun _ h => Option.some.inj h ▸ (fits_encC16 _ a (by decide))
theorem WordFits.vmacF32C16 (a : C16Args) : WordFits.Statement (.vmacF32C16 a) := fun _ h => Option.some.inj h ▸ (fits_encC16 _ a (by decide))
theorem WordFits.vsllS32C16 (a : C16Args) : WordFits.Statement (.vsllS32C16 a) := fun _ h => Option.some.inj h ▸ (fits_encC16 _ a (by decide))
theorem WordFits.vcvtBf16F32C16 (a : C16Args) : WordFits.Statement (.vcvtBf16F32C16 a) := fun _ h => Option.some.inj h ▸ (fits_encC16 _ a (by decide))
theorem WordFits.powerOnReset : WordFits.Statement .powerOnReset := fun _ h => nomatch h
theorem WordFits.firmwareDownload (digest : BitVec 512) : WordFits.Statement (.firmwareDownload digest) := fun _ h => nomatch h
theorem WordFits.trapEntry (strand : Nat) (cause : BitVec 8) (tval tcap : Word) : WordFits.Statement (.trapEntry strand cause tval tcap) := fun _ h => nomatch h
theorem WordFits.interrupt (pid : Fin 16) (code : BitVec 8) : WordFits.Statement (.interrupt pid code) := fun _ h => nomatch h
theorem WordFits.slotmodeWrite (core : Nat) (value : Word) : WordFits.Statement (.slotmodeWrite core value) := fun _ h => nomatch h
theorem WordFits.slotmodeSwitch (core : Nat) : WordFits.Statement (.slotmodeSwitch core) := fun _ h => nomatch h
theorem WordFits.l1cfgWrite (core : Nat) (value : Word) : WordFits.Statement (.l1cfgWrite core value) := fun _ h => nomatch h
theorem WordFits.l1cfgReconfigure (core : Nat) : WordFits.Statement (.l1cfgReconfigure core) := fun _ h => nomatch h
theorem WordFits.mtbaseWrite (pid : Fin 16) (value : Word) : WordFits.Statement (.mtbaseWrite pid value) := fun _ h => nomatch h
theorem WordFits.linkArrival (core : Nat) (dir : Fin 2) : WordFits.Statement (.linkArrival core dir) := fun _ h => nomatch h
theorem WordFits.registerCacheFill (strand line : Nat) : WordFits.Statement (.registerCacheFill strand line) := fun _ h => nomatch h
theorem WordFits.recipeReplay (strand : Nat) (cls : Fin 2) (reg : Reg) : WordFits.Statement (.recipeReplay strand cls reg) := fun _ h => nomatch h
theorem WordFits.syncTimeout (strand : Nat) : WordFits.Statement (.syncTimeout strand) := fun _ h => nomatch h
theorem WordFits.lockhold (core : Nat) (bank : Fin 16) : WordFits.Statement (.lockhold core bank) := fun _ h => nomatch h
theorem WordFits.bankfmtApply (strand : Nat) : WordFits.Statement (.bankfmtApply strand) := fun _ h => nomatch h
theorem WordFits.matrixOpStart (core : Nat) : WordFits.Statement (.matrixOpStart core) := fun _ h => nomatch h
theorem WordFits.matrixOpComplete (core : Nat) : WordFits.Statement (.matrixOpComplete core) := fun _ h => nomatch h
theorem WordFits.copyStart (core : Nat) (queue : Fin 4) : WordFits.Statement (.copyStart core queue) := fun _ h => nomatch h
theorem WordFits.copyUnitDeliver (core : Nat) (queue : Fin 4) : WordFits.Statement (.copyUnitDeliver core queue) := fun _ h => nomatch h
theorem WordFits.copyComplete (core : Nat) (queue : Fin 4) : WordFits.Statement (.copyComplete core queue) := fun _ h => nomatch h
theorem WordFits.cpfComplete (core : Nat) (queue : Fin 4) : WordFits.Statement (.cpfComplete core queue) := fun _ h => nomatch h
theorem WordFits.taskStart (cluster : Nat) (slot : Fin 32) (strand : Nat) : WordFits.Statement (.taskStart cluster slot strand) := fun _ h => nomatch h
theorem WordFits.mailboxAccept (pid : Fin 16) : WordFits.Statement (.mailboxAccept pid) := fun _ h => nomatch h
theorem WordFits.kmuPassStart (cluster : Nat) : WordFits.Statement (.kmuPassStart cluster) := fun _ h => nomatch h
theorem WordFits.kmuPageFetch (cluster : Nat) : WordFits.Statement (.kmuPageFetch cluster) := fun _ h => nomatch h
theorem WordFits.kmuPageDeliver (cluster : Nat) (core : Fin 8) : WordFits.Statement (.kmuPageDeliver cluster core) := fun _ h => nomatch h
theorem WordFits.windowAdjust (core : Nat) (marked : Bool) : WordFits.Statement (.windowAdjust core marked) := fun _ h => nomatch h
theorem WordFits.l2SliceRequest (pid : Fin 16) (va pa : Nat) (write : Bool) : WordFits.Statement (.l2SliceRequest pid va pa write) := fun _ h => nomatch h
theorem WordFits.pageTableWalk (pid : Fin 16) (va : Nat) (write : Bool) : WordFits.Statement (.pageTableWalk pid va write) := fun _ h => nomatch h
theorem WordFits.gddr7BlockWrite (pid : Fin 16) (pa : Nat) (objid : BitVec 20) : WordFits.Statement (.gddr7BlockWrite pid pa objid) := fun _ h => nomatch h
theorem WordFits.gddr7BlockRead (strand : Nat) (pa : Nat) (objid : BitVec 20) (capReg : Reg) : WordFits.Statement (.gddr7BlockRead strand pa objid capReg) := fun _ h => nomatch h
theorem WordFits.scrub (die : Fin 2) (correctable : Bool) : WordFits.Statement (.scrub die correctable) := fun _ h => nomatch h
theorem WordFits.uncorrectableError (e : UeArgs) : WordFits.Statement (.uncorrectableError e) := fun _ h => nomatch h
theorem WordFits.allasleep (pid : Fin 16) : WordFits.Statement (.allasleep pid) := fun _ h => nomatch h
theorem WordFits.ofreeCommit (strand : Nat) : WordFits.Statement (.ofreeCommit strand) := fun _ h => nomatch h
theorem WordFits.sweepVisit (pid : Fin 16) (loc : SweepLoc) : WordFits.Statement (.sweepVisit pid loc) := fun _ h => nomatch h
theorem WordFits.sweepComplete (e : SweepEnd) : WordFits.Statement (.sweepComplete e) := fun _ h => nomatch h
theorem WordFits.partitionCreate (d : Descriptor) : WordFits.Statement (.partitionCreate d) := fun _ h => nomatch h
theorem WordFits.partitionChange (d : Descriptor) (destroy : Bool) : WordFits.Statement (.partitionChange d destroy) := fun _ h => nomatch h
theorem WordFits.partitionSwapOut (pid : Fin 16) : WordFits.Statement (.partitionSwapOut pid) := fun _ h => nomatch h
theorem WordFits.partitionSwapIn (pid : Fin 16) : WordFits.Statement (.partitionSwapIn pid) := fun _ h => nomatch h
theorem WordFits.thermalNotice (cluster : Nat) : WordFits.Statement (.thermalNotice cluster) := fun _ h => nomatch h
theorem WordFits.thermalStop (cluster : Nat) : WordFits.Statement (.thermalStop cluster) := fun _ h => nomatch h
theorem WordFits.powerLimitStep (e : PowerStep) : WordFits.Statement (.powerLimitStep e) := fun _ h => nomatch h
theorem WordFits.hostWrite (pa : BarPlace) (size : Fin 4) (value : Word) : WordFits.Statement (.hostWrite pa size value) := fun _ h => nomatch h
theorem WordFits.hostRead (place : ReadPlace) (size : Fin 4) : WordFits.Statement (.hostRead place size) := fun _ h => nomatch h
theorem WordFits.cxlMemRequest (offset : Nat) (write : Bool) (value : Word) : WordFits.Statement (.cxlMemRequest offset write value) := fun _ h => nomatch h
theorem WordFits.hostLinkTrain (width : Nat) (rate : Nat) (cxl : Bool) : WordFits.Statement (.hostLinkTrain width rate cxl) := fun _ h => nomatch h
theorem WordFits.mbctlWrite (pid : Fin 16) (value : Word) : WordFits.Statement (.mbctlWrite pid value) := fun _ h => nomatch h
theorem WordFits.mbtailWrite (pid : Fin 16) (value : Word) : WordFits.Statement (.mbtailWrite pid value) := fun _ h => nomatch h
theorem WordFits.intreq (pid : Fin 16) (value : Word) : WordFits.Statement (.intreq pid value) := fun _ h => nomatch h
theorem WordFits.pairctlWrite (pid : Fin 16) (pf : Bool) (value : Word) : WordFits.Statement (.pairctlWrite pid pf value) := fun _ h => nomatch h
theorem WordFits.pairing (pid : Fin 16) (peerNames : Option (Fin 16)) : WordFits.Statement (.pairing pid peerNames) := fun _ h => nomatch h
theorem WordFits.hdmpartWrite (pf : Bool) (value : Word) : WordFits.Statement (.hdmpartWrite pf value) := fun _ h => nomatch h
theorem WordFits.hdmpartApply : WordFits.Statement .hdmpartApply := fun _ h => nomatch h
theorem WordFits.coreoffWrite (pid : Fin 16) (pf : Bool) (index : Fin 32) (value : Byte) : WordFits.Statement (.coreoffWrite pid pf index value) := fun _ h => nomatch h
theorem WordFits.dirtyctlWrite (pid : Fin 16) (pf : Bool) (value : Word) : WordFits.Statement (.dirtyctlWrite pid pf value) := fun _ h => nomatch h
theorem WordFits.dirtydataRead (pid : Fin 16) (pf : Bool) : WordFits.Statement (.dirtydataRead pid pf) := fun _ h => nomatch h
theorem WordFits.migcmdStop (pid : Fin 16) (pf : Bool) : WordFits.Statement (.migcmdStop pid pf) := fun _ h => nomatch h
theorem WordFits.migcmdSave (pid : Fin 16) (pf : Bool) : WordFits.Statement (.migcmdSave pid pf) := fun _ h => nomatch h
theorem WordFits.migcmdRestore (pid : Fin 16) (pf : Bool) (sameGeometry : MigLoad) : WordFits.Statement (.migcmdRestore pid pf sameGeometry) := fun _ h => nomatch h
theorem WordFits.migcmdResume (pid : Fin 16) (pf : Bool) : WordFits.Statement (.migcmdResume pid pf) := fun _ h => nomatch h
theorem WordFits.evidenceRequest (pid : Fin 16) (nonce : BitVec 512) : WordFits.Statement (.evidenceRequest pid nonce) := fun _ h => nomatch h
theorem WordFits.keyImport (pid : Fin 16) (epoch : Word) (request : Nat) : WordFits.Statement (.keyImport pid epoch request) := fun _ h => nomatch h
theorem WordFits.measurementExtend (pid : Fin 16) (index : Fin 4) (digest : BitVec 512) : WordFits.Statement (.measurementExtend pid index digest) := fun _ h => nomatch h
theorem WordFits.eventsClear (pid : Fin 16) (value : Word) : WordFits.Statement (.eventsClear pid value) := fun _ h => nomatch h
theorem WordFits.adminRegWrite (pid : Fin 16) (pf : Bool) (offset : Nat) (value : Word) : WordFits.Statement (.adminRegWrite pid pf offset value) := fun _ h => nomatch h
theorem WordFits.seamTrain (trained : Bool) (strap peerStrap : Bool) : WordFits.Statement (.seamTrain trained strap peerStrap) := fun _ h => nomatch h
theorem WordFits.flitReplay : WordFits.Statement .flitReplay := fun _ h => nomatch h
theorem WordFits.seamRetrain : WordFits.Statement .seamRetrain := fun _ h => nomatch h
theorem WordFits.seamDown : WordFits.Statement .seamDown := fun _ h => nomatch h
theorem WordFits.peerStore (die : Fin 2) (pa : Nat) (size : Fin 7) (value : PeerData) : WordFits.Statement (.peerStore die pa size value) := fun _ h => nomatch h
theorem WordFits.peerLoad (die : Fin 2) (pa : Nat) (size : PeerRead) : WordFits.Statement (.peerLoad die pa size) := fun _ h => nomatch h
theorem WordFits.peerAtomic (pa : Nat) (wide : PeerAtom) (op : Fin 11) (operand expected : Word) : WordFits.Statement (.peerAtomic pa wide op operand expected) := fun _ h => nomatch h
theorem WordFits.peerAcknowledge (strand : Nat) : WordFits.Statement (.peerAcknowledge strand) := fun _ h => nomatch h
theorem WordFits.peerWake (pid : Fin 16) (strand : Nat) : WordFits.Statement (.peerWake pid strand) := fun _ h => nomatch h
theorem WordFits.peerOfreeUpdate (pid : Fin 16) (objid : BitVec 20) : WordFits.Statement (.peerOfreeUpdate pid objid) := fun _ h => nomatch h
theorem WordFits.peerInvalidation (pid : Fin 16) (pa : PeerChange) : WordFits.Statement (.peerInvalidation pid pa) := fun _ h => nomatch h
theorem WordFits.lncpyUnitDeliver (die : Fin 2) (pid : Fin 16) : WordFits.Statement (.lncpyUnitDeliver die pid) := fun _ h => nomatch h
theorem WordFits.lnredChunkSend (die : Fin 2) (pid : Fin 16) : WordFits.Statement (.lnredChunkSend die pid) := fun _ h => nomatch h
theorem WordFits.lnredChunkCombine (die : Fin 2) (pid : Fin 16) (fmt : ChunkHead) (extent : Nat) (partner : List (BitVec 32)) : WordFits.Statement (.lnredChunkCombine die pid fmt extent partner) := fun _ h => nomatch h
theorem WordFits.lnredPartnerHalt (die : Fin 2) (pid : Fin 16) (lstat : PartnerStop) : WordFits.Statement (.lnredPartnerHalt die pid lstat) := fun _ h => nomatch h
theorem WordFits.lqComplete (die : Fin 2) (pid : Fin 16) : WordFits.Statement (.lqComplete die pid) := fun _ h => nomatch h
theorem WordFits.contextRestart (strand : Nat) : WordFits.Statement (.contextRestart strand) := fun _ h => nomatch h
theorem WordFits.powerGating (pid : Fin 16) (on : Bool) : WordFits.Statement (.powerGating pid on) := fun _ h => nomatch h

end Sys2Proof.Laws
end

