-- ==== Sys2Proof/Laws/Plain.lean ====
section
/-! SUPPORT. Instructions that change nothing but their strand. -/

namespace Sys2Proof.Machine

@[simp] theorem Strand.issued_status (t : Strand) (y : Option RegRef) (ws : List RegRef) : (t.issued y ws).status = t.status :=
  Strand.begin_status t { reads := [], sync := y, writes := ws, eff := fun _ s => .ok s }

/-- An instruction whose body is that of a plain one completes as such. -/
theorem completes_of_body (i : Instr) (b : Body) (p : Plain) (hx : ∀ s, exec i s = issue b s) (hpre : ∀ s, b.pre s = .ok ())
    (hlate : ∀ s, b.late s = .ok s) (hb : ∀ r ∈ b.rebuilds, r.cls = .v → r ∈ b.writes) (hr : b.reads = p.reads) (hw : b.writes = p.writes) (hy : b.sync = p.sync)
    (hl : b.lat = p.lat) (hc : b.sc = p.sc) (hn : (b.len : Int) = p.len) (hj : b.jumps = false)
    (he : ∀ s : State, s.me.status = .running → b.eff 0 s = .ok (s.setMe (p.eff s.cycle s.me)))
    (hs : ∀ n t, (p.eff n t).status = t.status) : Completes i p := by
  intro s h
  have h' : Ready b.reads b.writes b.lat s := by rw [hr, hw, hl]; exact h
  have hrun : (s.me.begin b).status = .running := by rw [Strand.begin_status]; exact h.1
  have heff : b.eff 0 (s.setMe (s.me.begin b)) = .ok (s.setMe (p.eff s.cycle (s.me.begin b))) := by
    rw [he _ (by rw [s.me_setMe_running hrun]; exact hrun), s.me_setMe_running hrun, s.setMe_setMe_running hrun, State.setMe_cycle]
  rw [hx, issue_of_strand b s _ (hpre s) (hlate s) hb h' (by rw [hs]; exact hrun) heff]
  simp [hj, hc, hn, Strand.begin_eq_issued, hy, hw]

theorem putX_eq (s : State) (lat r : Nat) (v : Word) : s.putX lat r v = s.setMe (s.me.put s.cycle lat r (.x v)) := rfl

end Sys2Proof.Machine
end

