-- ==== Sys2Proof/Laws/Registers.lean ====
section
/-! SUPPORT. What a register reads after a write: the written value, or what it read before. -/

namespace Sys2Proof.Machine

@[simp] theorem Strand.readX_zero (t : Strand) : t.readX 0 = 0 := rfl
@[simp] theorem Strand.readC_zero (t : Strand) : t.readC 0 = Cap.null := rfl
@[simp] theorem Strand.readP_zero (t : Strand) : t.readP 0 = BitVec.allOnes 128 := rfl
@[simp] theorem Strand.setX_zero (t : Strand) (v : Word) : t.setX 0 v = t := rfl
@[simp] theorem Strand.setC_zero (t : Strand) (v : Cap) : t.setC 0 v = t := rfl
@[simp] theorem Strand.setP_zero (t : Strand) (v : Pred) : t.setP 0 v = t := rfl

theorem Strand.readX_setX (t : Strand) (r q : Nat) (v : Word) (h : swf 0 t.x = true) :
    (t.setX r v).readX q = if q = 0 then 0 else if q = r then v else t.readX q := by
  unfold Strand.setX Strand.readX
  by_cases hr : r = 0
  · subst hr; by_cases hq : q = 0 <;> simp [hq]
  · by_cases hq : q = 0
    · simp [hq]
    · by_cases he : q = r
      · subst he; simp only [hr, if_false, if_true]; exact sget_sset_same 0 t.x q v h
      · simp only [hr, hq, he, if_false]; exact sget_sset_other 0 t.x v h he

theorem Strand.readC_setC (t : Strand) (r q : Nat) (v : Cap) (h : swf Cap.null t.c = true) :
    (t.setC r v).readC q = if q = 0 then Cap.null else if q = r then v else t.readC q := by
  unfold Strand.setC Strand.readC
  by_cases hr : r = 0
  · subst hr; by_cases hq : q = 0 <;> simp [hq]
  · by_cases hq : q = 0
    · simp [hq]
    · by_cases he : q = r
      · subst he; simp only [hr, if_false, if_true]; exact sget_sset_same Cap.null t.c q v h
      · simp only [hr, hq, he, if_false]; exact sget_sset_other Cap.null t.c v h he

theorem Strand.readP_setP (t : Strand) (r q : Nat) (v : Pred) (h : swf 0 t.p = true) :
    (t.setP r v).readP q = if q = 0 then BitVec.allOnes 128 else if q = r then v else t.readP q := by
  unfold Strand.setP Strand.readP
  by_cases hr : r = 0
  · subst hr; by_cases hq : q = 0 <;> simp [hq]
  · by_cases hq : q = 0
    · simp [hq]
    · by_cases he : q = r
      · subst he; simp only [hr, if_false, if_true]; exact sget_sset_same 0 t.p q v h
      · simp only [hr, hq, he, if_false]; exact sget_sset_other 0 t.p v h he

theorem Strand.setReg_regsOk (t : Strand) (r : Nat) (v : RegVal) (h : t.RegsOk) : (t.setReg r v).RegsOk := by
  obtain ⟨hx, hc, hv, hp⟩ := h
  cases v with
  | x w =>
    simp only [Strand.setReg, Strand.setX]
    split
    · exact ⟨hx, hc, hv, hp⟩
    · exact ⟨swf_sset _ _ _ _ hx, hc, hv, hp⟩
  | c w =>
    simp only [Strand.setReg, Strand.setC]
    split
    · exact ⟨hx, hc, hv, hp⟩
    · exact ⟨hx, swf_sset _ _ _ _ hc, hv, hp⟩
  | v w => exact ⟨hx, hc, swf_sset _ _ _ _ hv, hp⟩
  | m w keep => exact ⟨hx, hc, swf_sset _ _ _ _ hv, hp⟩
  | p w =>
    simp only [Strand.setReg, Strand.setP]
    split
    · exact ⟨hx, hc, hv, hp⟩
    · exact ⟨hx, hc, hv, swf_sset _ _ _ _ hp⟩

/-- A result keeps the register tables in canonical form. -/
theorem Strand.put_regsOk (t : Strand) (cycle lat r : Nat) (v : RegVal) (h : t.RegsOk) : (t.put cycle lat r v).RegsOk := by
  unfold Strand.put
  split
  · exact t.setReg_regsOk r v h
  · split <;> exact h

/-- Pending results that take effect keep it. -/
theorem Strand.foldl_setReg_regsOk (ps : List PendWrite) (t : Strand) (h : t.RegsOk) :
    (ps.foldl (fun t w => t.setReg w.num w.val) t).RegsOk := by
  induction ps generalizing t with
  | nil => exact h
  | cons w rest ih => exact ih _ (t.setReg_regsOk w.num w.val h)

theorem Strand.commitUpTo_regsOk (t : Strand) (cycle : Nat) (h : t.RegsOk) : (t.commitUpTo cycle).RegsOk :=
  Strand.foldl_setReg_regsOk _ _ h

theorem Strand.commitAll_regsOk (t : Strand) (h : t.RegsOk) : t.commitAll.RegsOk :=
  Strand.foldl_setReg_regsOk _ { t with pend := [] } h

end Sys2Proof.Machine
end

