-- ==== Sys2Proof/Laws/Schedule.lean ====
section
/-! SUPPORT. Who moves next: a fetched instruction is performed as `exec` of it, an outside event goes first, and stopped clocks stop all
but a power-on reset. -/

namespace Sys2Proof.Machine

/-- A lane operation is performed as its constructor is. -/
theorem execLane_eq (op : Fin 16) (a : C16Args) (s : State) : execLane op a s = exec (Fetched.lane op a).toInstr s := by
  have h : op = 0 ∨ op = 1 ∨ op = 2 ∨ op = 3 ∨ op = 4 ∨ op = 5 ∨ op = 6 ∨ op = 7 ∨ op = 8 ∨ op = 9 ∨ op = 10 ∨ op = 11 ∨ op = 12
    ∨ op = 13 ∨ op = 14 ∨ op = 15 := by revert op; decide
  obtain h | h | h | h | h | h | h | h | h | h | h | h | h | h | h | h := h <;> subst h <;> rfl

/-- What was fetched is performed as `exec` of its instruction. -/
theorem execFetched_eq (f : Fetched) (s : State) : execFetched f s = exec f.toInstr s := by
  cases f with
  | whole i => rfl
  | lane op a => exact execLane_eq op a s

/-- An outside event that waits is the next step. -/
theorem step_agenda (s : State) (i : Instr) (rest : List Instr) (h : s.agenda = i :: rest) (hc : s.clocksOff = false) :
    step s = followed s (exec i { s with agenda := rest }) := by
  simp only [step, nextMove, h, hc]
  split <;> simp_all

/-- Once the clocks have stopped, nothing moves but a power-on reset (R456). -/
theorem step_clocksOff (s : State) (h : s.clocksOff = true) (hr : ∀ rest, s.agenda ≠ .powerOnReset :: rest) :
    step s = .fault .clocksStopped := by
  simp only [step, nextMove, h]
  split <;> simp_all

/-- With no outside event a step is the turn of a core, or the end of the cycle. -/
theorem step_turn (s : State) (h : s.agenda = []) (hc : s.clocksOff = false) : step s = turnStep s := by
  simp [step, nextMove, h, hc]

/-- The first context of a slot that is ready has it. -/
theorem firstReady_cons_some (n : Nat) (rest : List Nat) (s : State) (r : Answer) (h : tryContext n s = some r) :
    firstReady (n :: rest) s = some r := by
  simp [firstReady, h]

/-- One that is not leaves it to the next. -/
theorem firstReady_cons_none (n : Nat) (rest : List Nat) (s : State) (h : tryContext n s = none) :
    firstReady (n :: rest) s = firstReady rest s := by
  simp [firstReady, h]

end Sys2Proof.Machine
end

