-- ==== Sys2Proof/Tests/Slice0.lean ====
section
/-! SUPPORT. Small tests: ill-formed terms are refused, words written out from Table 2.1 decode to their instructions, worked examples of the
spec, and for each statement with hypotheses a state and operands that meet them. -/

namespace Sys2Proof.Tests

open Sys2Proof Sys2Proof.Machine

set_option synthInstance.maxSize 2000
set_option Elab.async false

/-! Well-formedness: for each limit of R58 and R75 a term that breaks it. -/

/-- No term of a list is well-formed. -/
def refusesAll (l : List Instr) : Bool := l.all fun i => !i.WellFormed

theorem test_ill_formed_1 : refusesAll [
    .clz { rd := 5, rs1 := 6, rs2 := 1, sr := true, h := 2, sc := 1 },
    .slli { rd := 5, rs1 := 6, imm := 64, sc := 1 },
    .fsqrt { ty := .bf16, rd := 5, rs1 := 6, rs2 := 1, sr := true, h := 2, sc := 1 },
    .fcvt { dst := 1, src := 1, rd := 5, rs1 := 6, rm := 2, sat := true, sr := true, h := 2, sc := 1 },
    .tend { rd := 1, rs1 := 0, imm := 0, sc := 1 },
    .tend { rd := 0, rs1 := 1, imm := 0, sc := 1 },
    .tend { rd := 0, rs1 := 0, imm := 1, sc := 1 },
    .rep { ostep := 257, s2 := true, s1 := false, sd := true, count := 341, xc := true, sc := 1 },
    .lc { vd := 12, vs1 := 13, vs2 := 14, pg := 1, h := 2, sc := 1 },
    .vlse { vd := 12, vs1 := 13, vs2 := 31, pg := 3, h := 2, sc := 1 },
    .amoadd { rd := 5, cs := 9, rs2 := 7, scope := 7, ord := 1, sc := 1 },
    .ldAcq { rd := 5, cs := 9, rs2 := 0, scope := 3, ord := 0, sc := 1 },
    .ldAcq { rd := 5, cs := 9, rs2 := 1, scope := 3, ord := 1, sc := 1 },
    .stRel { rd := 0, cs := 9, rs2 := 7, scope := 3, ord := 1, sc := 1 },
    .stRel { rd := 1, cs := 9, rs2 := 7, scope := 3, ord := 2, sc := 1 },
    .fence { rd := 0, cs := 0, rs2 := 0, scope := 3, ord := 0, sc := 1 },
    .fence { rd := 0, cs := 1, rs2 := 0, scope := 3, ord := 1, sc := 1 },
    .movg { rd := 16, rs1 := 6, rs2 := 0, sr := true, h := 2, sc := 1 },
    .movfg { rd := 5, rs1 := 16, rs2 := 0, sr := true, h := 2, sc := 1 },
    .rdef { rd := 1, rs1 := 6, rs2 := 4, sr := false, h := 2, sc := 1 },
    .rdef { rd := 0, rs1 := 16, rs2 := 4, sr := false, h := 2, sc := 1 },
    .rdef { rd := 0, rs1 := 6, rs2 := 0, sr := false, h := 2, sc := 1 },
    .rdef { rd := 0, rs1 := 6, rs2 := 16, sr := false, h := 2, sc := 1 },
    .rdef { rd := 0, rs1 := 6, rs2 := 4, sr := true, h := 2, sc := 1 }] = true := by decide +kernel

theorem test_ill_formed_2 : refusesAll [
    .rtag { rd := 5, rs1 := 6, rs2 := 2, sr := false, h := 2, sc := 1 },
    .rdrop { rd := 5, rs1 := 1, rs2 := 1, sr := false, h := 2, sc := 1 },
    .vfma { vd := 12, vs1 := 13, vs2 := 14, pg := 3, f2 := 3, h := 2, sc := 1 },
    .vsqrt { vd := 12, vs1 := 13, pg := 3, f2 := 3, h := 2, sc := 1 },
    .vexp { vd := 12, vs1 := 13, pg := 3, f2 := 1, h := 2, sc := 1 },
    .vdot { vd := 12, vs1 := 13, vs2 := 14, pg := 3, f2 := 0, h := 2, sc := 1 },
    .vcvt { vd := 12, vs1 := 13, vs2 := 20, pg := 3, f2 := 1, h := 2, sc := 1 },
    .viota { vd := 12, vs1 := 1, pg := 3, f2 := 1, h := 2, sc := 1 },
    .vred { vd := 12, vs1 := 13, vs2 := 3, pg := 3, f2 := 1, h := 2, sc := 1 },
    .pand { vd := 16, vs1 := 4, vs2 := 4, f2 := 0, h := 2, sc := 1 },
    .pand { vd := 4, vs1 := 16, vs2 := 4, f2 := 0, h := 2, sc := 1 },
    .pand { vd := 4, vs1 := 4, vs2 := 16, f2 := 0, h := 2, sc := 1 },
    .pand { vd := 4, vs1 := 4, vs2 := 4, f2 := 1, h := 2, sc := 1 },
    .pnot { vd := 4, vs1 := 4, vs2 := 1, f2 := 0, h := 2, sc := 1 },
    .bpany { rs1 := 16, rs2 := 0, imm := 677, sc := 1 },
    .bpany { rs1 := 6, rs2 := 1, imm := 677, sc := 1 },
    .mwload { ca := 17, cb := 1, xc := 0, q := 2, h := 2, sc := 1 },
    .mwload { ca := 17, cb := 0, xc := 1, q := 2, h := 2, sc := 1 },
    .mwload { ca := 17, cb := 0, xc := 0, q := 7, h := 2, sc := 1 },
    .mzero { ca := 1, cb := 0, xc := 0, q := 2, h := 2, sc := 1 },
    .mstat { ca := 0, cb := 0, xc := 19, q := 1, h := 2, sc := 1 },
    .mma { ca := 17, cb := 16, xc := 19, q := 0, f2 := 1, h := 2, sc := 1 },
    .mma { ca := 17, cb := 4, xc := 19, q := 1, f2 := 1, h := 2, sc := 1 },
    .mstore { ca := 17, cb := 1, xc := 0, q := 2, f2 := 1, h := 2, sc := 1 }] = true := by decide +kernel

theorem test_ill_formed_3 : refusesAll [
    .mstore { ca := 17, cb := 0, xc := 1, q := 2, f2 := 1, h := 2, sc := 1 },
    .mrdrow { ca := 1, cb := 18, xc := 19, f2 := 1, h := 2, sc := 1 },
    .cpyw { ca := 17, cb := 31, xc := 19, q := 2, h := 2, sc := 1 },
    .cpabort { ca := 2, cb := 0, xc := 0, q := 2, h := 2, sc := 1 },
    .barinit { ca := 17, cb := 1, xc := 19, f2 := 0, h := 2, sc := 1 },
    .barinit { ca := 17, cb := 0, xc := 19, f2 := 1, h := 2, sc := 1 },
    .splock { ca := 17, cb := 0, xc := 1, f2 := 0, h := 2, sc := 1 },
    .putr { rd := 16, rs1 := 6, rs2 := 7, sr := true, h := 2, sc := 1 },
    .putr { rd := 3, rs1 := 6, rs2 := 7, sr := true, h := 2, sc := 1 }] = true := by decide +kernel
theorem test_ill_formed_marker : refusesAll [.vaddF32C16 { vd := 0, vs2 := 0, p1 := false }] = true := by decide +kernel

theorem test_well_formed : Instr.WellFormed (.vaddF32C16 { vd := 0, vs2 := 0, p1 := true }) = true
    ∧ Instr.WellFormed (.movg { rd := 15, rs1 := 31, rs2 := 0, sr := true, h := 3, sc := 3 }) = true
    ∧ Instr.WellFormed (.srai { rd := 0, rs1 := 0, imm := 63, sc := 0 }) = true := by decide +kernel

/-! Decoding: a word for each instruction, its operand fields placed by Table 2.1 and its other bits those of its row of the opcode table. -/

/-- Each word of a list, of `nbits` bits, decodes to its instruction. -/
noncomputable def decodes (nbits : Nat) (l : List (Nat × Instr)) : Bool := l.all fun e => decide (decodeTableWord nbits e.1 = some e.2)

theorem test_decode_R_1 : decodes 32 [
    (0x41398A81, .add { rd := 5, rs1 := 6, rs2 := 7, sr := true, h := 2, sc := 1 }),
    (0x43398A81, .sub { rd := 5, rs1 := 6, rs2 := 7, sr := true, h := 2, sc := 1 }),
    (0x45398A81, .and { rd := 5, rs1 := 6, rs2 := 7, sr := true, h := 2, sc := 1 }),
    (0x47398A81, .or { rd := 5, rs1 := 6, rs2 := 7, sr := true, h := 2, sc := 1 }),
    (0x49398A81, .xor { rd := 5, rs1 := 6, rs2 := 7, sr := true, h := 2, sc := 1 }),
    (0x4B398A81, .sll { rd := 5, rs1 := 6, rs2 := 7, sr := true, h := 2, sc := 1 }),
    (0x4D398A81, .srl { rd := 5, rs1 := 6, rs2 := 7, sr := true, h := 2, sc := 1 }),
    (0x4F398A81, .sra { rd := 5, rs1 := 6, rs2 := 7, sr := true, h := 2, sc := 1 }),
    (0x51398A81, .rol { rd := 5, rs1 := 6, rs2 := 7, sr := true, h := 2, sc := 1 }),
    (0x53398A81, .ror { rd := 5, rs1 := 6, rs2 := 7, sr := true, h := 2, sc := 1 }),
    (0x55398A81, .slt { rd := 5, rs1 := 6, rs2 := 7, sr := true, h := 2, sc := 1 }),
    (0x57398A81, .sltn { rd := 5, rs1 := 6, rs2 := 7, sr := true, h := 2, sc := 1 }),
    (0x59398A81, .min { rd := 5, rs1 := 6, rs2 := 7, sr := true, h := 2, sc := 1 }),
    (0x5B398A81, .max { rd := 5, rs1 := 6, rs2 := 7, sr := true, h := 2, sc := 1 }),
    (0x5D398A81, .minn { rd := 5, rs1 := 6, rs2 := 7, sr := true, h := 2, sc := 1 }),
    (0x5F398A81, .maxn { rd := 5, rs1 := 6, rs2 := 7, sr := true, h := 2, sc := 1 }),
    (0x41398A83, .mul { rd := 5, rs1 := 6, rs2 := 7, sr := true, h := 2, sc := 1 }),
    (0x43398A83, .mulh { rd := 5, rs1 := 6, rs2 := 7, sr := true, h := 2, sc := 1 }),
    (0x45398A83, .mulhn { rd := 5, rs1 := 6, rs2 := 7, sr := true, h := 2, sc := 1 }),
    (0x47398A83, .div { rd := 5, rs1 := 6, rs2 := 7, sr := true, h := 2, sc := 1 })] = true := by decide +kernel

theorem test_decode_R_2 : decodes 32 [
    (0x49398A83, .divn { rd := 5, rs1 := 6, rs2 := 7, sr := true, h := 2, sc := 1 }),
    (0x4B398A83, .rem { rd := 5, rs1 := 6, rs2 := 7, sr := true, h := 2, sc := 1 }),
    (0x4D398A83, .remn { rd := 5, rs1 := 6, rs2 := 7, sr := true, h := 2, sc := 1 }),
    (0x4F018A83, .clz { rd := 5, rs1 := 6, rs2 := 0, sr := true, h := 2, sc := 1 }),
    (0x51018A83, .ctz { rd := 5, rs1 := 6, rs2 := 0, sr := true, h := 2, sc := 1 }),
    (0x53018A83, .popc { rd := 5, rs1 := 6, rs2 := 0, sr := true, h := 2, sc := 1 }),
    (0x41398AAD, .lds { rd := 5, rs1 := 6, rs2 := 7, sr := true, h := 2, sc := 1 }),
    (0x43398AAD, .sts { rd := 5, rs1 := 6, rs2 := 7, sr := true, h := 2, sc := 1 }),
    (0x45398AAD, .ldf { rd := 5, rs1 := 6, rs2 := 7, sr := true, h := 2, sc := 1 }),
    (0x47398AAD, .setfe { rd := 5, rs1 := 6, rs2 := 7, sr := true, h := 2, sc := 1 }),
    (0x49398AAD, .waita { rd := 5, rs1 := 6, rs2 := 7, sr := true, h := 2, sc := 1 }),
    (0x4B018AAD, .movg { rd := 5, rs1 := 6, rs2 := 0, sr := true, h := 2, sc := 1 }),
    (0x4D018AAD, .movfg { rd := 5, rs1 := 6, rs2 := 0, sr := true, h := 2, sc := 1 }),
    (0x402180AF, .rdef { rd := 0, rs1 := 6, rs2 := 4, sr := false, h := 2, sc := 1 }),
    (0x42098AAF, .rtag { rd := 5, rs1 := 6, rs2 := 1, sr := false, h := 2, sc := 1 }),
    (0x44080AAF, .rdrop { rd := 5, rs1 := 0, rs2 := 1, sr := false, h := 2, sc := 1 }),
    (0x46098AAF, .rpin { rd := 5, rs1 := 6, rs2 := 1, sr := false, h := 2, sc := 1 }),
    (0x480180AF, .rinv { rd := 0, rs1 := 6, rs2 := 0, sr := false, h := 2, sc := 1 }),
    (0x41398AB1, .cslice { rd := 5, rs1 := 6, rs2 := 7, sr := true, h := 2, sc := 1 }),
    (0x43398AB1, .cstep { rd := 5, rs1 := 6, rs2 := 7, sr := true, h := 2, sc := 1 })] = true := by decide +kernel

theorem test_decode_R_3 : decodes 32 [
    (0x45398AB1, .cflip { rd := 5, rs1 := 6, rs2 := 7, sr := true, h := 2, sc := 1 }),
    (0x47398AB1, .cperm { rd := 5, rs1 := 6, rs2 := 7, sr := true, h := 2, sc := 1 }),
    (0x49398AB1, .csplit { rd := 5, rs1 := 6, rs2 := 7, sr := true, h := 2, sc := 1 }),
    (0x4B398AB1, .cmerge { rd := 5, rs1 := 6, rs2 := 7, sr := true, h := 2, sc := 1 }),
    (0x4D398AB1, .cfix { rd := 5, rs1 := 6, rs2 := 7, sr := true, h := 2, sc := 1 }),
    (0x4F398AB1, .cbcast { rd := 5, rs1 := 6, rs2 := 7, sr := true, h := 2, sc := 1 }),
    (0x51398AB1, .candp { rd := 5, rs1 := 6, rs2 := 7, sr := true, h := 2, sc := 1 }),
    (0x53398AB1, .creach { rd := 5, rs1 := 6, rs2 := 7, sr := true, h := 2, sc := 1 }),
    (0x55398AB1, .cretag { rd := 5, rs1 := 6, rs2 := 7, sr := true, h := 2, sc := 1 }),
    (0x57018AB1, .cmove { rd := 5, rs1 := 6, rs2 := 0, sr := true, h := 2, sc := 1 }),
    (0x59018AB1, .cclear { rd := 5, rs1 := 6, rs2 := 0, sr := true, h := 2, sc := 1 }),
    (0x41398AB3, .cgetf { rd := 5, rs1 := 6, rs2 := 7, sr := true, h := 2, sc := 1 }),
    (0x43018AB3, .ctest { rd := 5, rs1 := 6, rs2 := 0, sr := true, h := 2, sc := 1 }),
    (0x45398AB3, .csubset { rd := 5, rs1 := 6, rs2 := 7, sr := true, h := 2, sc := 1 }),
    (0x47398AB3, .ceq { rd := 5, rs1 := 6, rs2 := 7, sr := true, h := 2, sc := 1 }),
    (0x49398AB3, .cbind { rd := 5, rs1 := 6, rs2 := 7, sr := true, h := 2, sc := 1 }),
    (0x4B398AB3, .cunbind { rd := 5, rs1 := 6, rs2 := 7, sr := true, h := 2, sc := 1 }),
    (0x4D3980B3, .ccall { rd := 0, rs1 := 6, rs2 := 7, sr := true, h := 2, sc := 1 }),
    (0x4E0000B3, .cret { rd := 0, rs1 := 0, rs2 := 0, sr := false, h := 2, sc := 1 }),
    (0x51018AB3, .ckey { rd := 5, rs1 := 6, rs2 := 0, sr := true, h := 2, sc := 1 })] = true := by decide +kernel

theorem test_decode_R_4 : decodes 32 [
    (0x41398AF9, .spawn { rd := 5, rs1 := 6, rs2 := 7, sr := true, h := 2, sc := 1 }),
    (0x43018AF9, .reap { rd := 5, rs1 := 6, rs2 := 0, sr := true, h := 2, sc := 1 }),
    (0x440000F9, .yield { rd := 0, rs1 := 0, rs2 := 0, sr := false, h := 2, sc := 1 }),
    (0x47018AF9, .park { rd := 5, rs1 := 6, rs2 := 0, sr := true, h := 2, sc := 1 }),
    (0x49018AF9, .wake { rd := 5, rs1 := 6, rs2 := 0, sr := true, h := 2, sc := 1 }),
    (0x4B398AF9, .putr { rd := 5, rs1 := 6, rs2 := 7, sr := true, h := 2, sc := 1 }),
    (0x4D018AF9, .skjoin { rd := 5, rs1 := 6, rs2 := 0, sr := true, h := 2, sc := 1 }),
    (0x4F018AF9, .skleave { rd := 5, rs1 := 6, rs2 := 0, sr := true, h := 2, sc := 1 }),
    (0x51018AF9, .skbar { rd := 5, rs1 := 6, rs2 := 0, sr := true, h := 2, sc := 1 }),
    (0x53018AF9, .skquery { rd := 5, rs1 := 6, rs2 := 0, sr := true, h := 2, sc := 1 }),
    (0x55398AF9, .tlaunch { rd := 5, rs1 := 6, rs2 := 7, sr := true, h := 2, sc := 1 }),
    (0x56018AF9, .twait { rd := 5, rs1 := 6, rs2 := 0, sr := false, h := 2, sc := 1 }),
    (0x41398AFB, .kvsub { rd := 5, rs1 := 6, rs2 := 7, sr := true, h := 2, sc := 1 }),
    (0x430180FB, .kvunsub { rd := 0, rs1 := 6, rs2 := 0, sr := true, h := 2, sc := 1 }),
    (0x44000AFB, .kvnext { rd := 5, rs1 := 0, rs2 := 0, sr := false, h := 2, sc := 1 }),
    (0x470180FB, .kvrel { rd := 0, rs1 := 6, rs2 := 0, sr := true, h := 2, sc := 1 }),
    (0x49018AFB, .mgalloc { rd := 5, rs1 := 6, rs2 := 0, sr := true, h := 2, sc := 1 }),
    (0x4B398AFB, .mgput { rd := 5, rs1 := 6, rs2 := 7, sr := true, h := 2, sc := 1 }),
    (0x4D398AFB, .mgget { rd := 5, rs1 := 6, rs2 := 7, sr := true, h := 2, sc := 1 }),
    (0x4F0180FB, .mgfree { rd := 0, rs1 := 6, rs2 := 0, sr := true, h := 2, sc := 1 })] = true := by decide +kernel

theorem test_decode_R_5 : decodes 32 [
    (0x41398AFD, .l2pin { rd := 5, rs1 := 6, rs2 := 7, sr := true, h := 2, sc := 1 }),
    (0x43018AFD, .l2unpin { rd := 5, rs1 := 6, rs2 := 0, sr := true, h := 2, sc := 1 }),
    (0x453980FD, .l2hint { rd := 0, rs1 := 6, rs2 := 7, sr := true, h := 2, sc := 1 }),
    (0x470180FD, .l2flush { rd := 0, rs1 := 6, rs2 := 0, sr := true, h := 2, sc := 1 }),
    (0x490180FD, .l2inv { rd := 0, rs1 := 6, rs2 := 0, sr := true, h := 2, sc := 1 }),
    (0x4B398AFD, .oalloc { rd := 5, rs1 := 6, rs2 := 7, sr := true, h := 2, sc := 1 }),
    (0x4D0180FD, .ofree { rd := 0, rs1 := 6, rs2 := 0, sr := true, h := 2, sc := 1 }),
    (0x4E000AFD, .sweepgo { rd := 5, rs1 := 0, rs2 := 0, sr := false, h := 2, sc := 1 }),
    (0x50000AFD, .sweepstat { rd := 5, rs1 := 0, rs2 := 0, sr := false, h := 2, sc := 1 }),
    (0x530180FD, .verstep { rd := 0, rs1 := 6, rs2 := 0, sr := true, h := 2, sc := 1 }),
    (0x55398AFD, .lncpy { rd := 5, rs1 := 6, rs2 := 7, sr := true, h := 2, sc := 1 }),
    (0x57398AFD, .lnred { rd := 5, rs1 := 6, rs2 := 7, sr := true, h := 2, sc := 1 }),
    (0x580000FD, .lnfence { rd := 0, rs1 := 0, rs2 := 0, sr := false, h := 2, sc := 1 }),
    (0x5B018AFD, .lnstat { rd := 5, rs1 := 6, rs2 := 0, sr := true, h := 2, sc := 1 })] = true := by decide +kernel

theorem test_decode_I_1 : decodes 32 [
    (0xA9418A85, .addi { rd := 5, rs1 := 6, imm := 677, sc := 1 }),
    (0xA9498A85, .andi { rd := 5, rs1 := 6, imm := 677, sc := 1 }),
    (0xA9518A85, .ori { rd := 5, rs1 := 6, imm := 677, sc := 1 }),
    (0xA9598A85, .xori { rd := 5, rs1 := 6, imm := 677, sc := 1 }),
    (0x01218A85, .slli { rd := 5, rs1 := 6, imm := 4, sc := 1 }),
    (0x01298A85, .srli { rd := 5, rs1 := 6, imm := 4, sc := 1 }),
    (0x01318A85, .srai { rd := 5, rs1 := 6, imm := 4, sc := 1 }),
    (0xA9798A85, .slti { rd := 5, rs1 := 6, imm := 677, sc := 1 }),
    (0xA9418A95, .jalc { rd := 5, rs1 := 6, imm := 677, sc := 1 }),
    (0x00080095, .tend { rd := 0, rs1 := 0, imm := 0, sc := 1 }),
    (0xA9500095, .ecall { rd := 0, rs1 := 0, imm := 677, sc := 1 }),
    (0xA9580095, .ebreak { rd := 0, rs1 := 0, imm := 677, sc := 1 }),
    (0x00200095, .nop { rd := 0, rs1 := 0, imm := 0, sc := 1 }),
    (0xA9418A99, .lb { rd := 5, rs1 := 6, imm := 677, sc := 1 }),
    (0xA9498A99, .lh { rd := 5, rs1 := 6, imm := 677, sc := 1 }),
    (0xA9518A99, .lw { rd := 5, rs1 := 6, imm := 677, sc := 1 }),
    (0xA9598A99, .ld { rd := 5, rs1 := 6, imm := 677, sc := 1 }),
    (0xA9618A99, .lbn { rd := 5, rs1 := 6, imm := 677, sc := 1 }),
    (0xA9698A99, .lhn { rd := 5, rs1 := 6, imm := 677, sc := 1 }),
    (0xA9718A99, .lwn { rd := 5, rs1 := 6, imm := 677, sc := 1 })] = true := by decide +kernel

theorem test_decode_I_2 : decodes 32 [
    (0xA9400AFF, .csrr { rd := 5, rs1 := 0, imm := 677, sc := 1 }),
    (0xA94980FF, .csrw { rd := 0, rs1 := 6, imm := 677, sc := 1 }),
    (0xA95180FF, .csrs { rd := 0, rs1 := 6, imm := 677, sc := 1 }),
    (0xA95980FF, .csrc { rd := 0, rs1 := 6, imm := 677, sc := 1 }),
    (0x002000FF, .tret { rd := 0, rs1 := 0, imm := 0, sc := 1 })] = true := by decide +kernel

theorem test_decode_U : decodes 32 [
    (0x00A94A87, .lui { rd := 5, imm := 677, sc := 1 })] = true := by decide +kernel

theorem test_decode_float : decodes 32 [
    (0x41398A8B, .fadd { ty := .bf16, rd := 5, rs1 := 6, rs2 := 7, sr := true, h := 2, sc := 1 }),
    (0x43398A8B, .fsub { ty := .bf16, rd := 5, rs1 := 6, rs2 := 7, sr := true, h := 2, sc := 1 }),
    (0x45398A8B, .fmul { ty := .bf16, rd := 5, rs1 := 6, rs2 := 7, sr := true, h := 2, sc := 1 }),
    (0x47398A8B, .ffma { ty := .bf16, rd := 5, rs1 := 6, rs2 := 7, sr := true, h := 2, sc := 1 }),
    (0x49398A8B, .fdiv { ty := .bf16, rd := 5, rs1 := 6, rs2 := 7, sr := true, h := 2, sc := 1 }),
    (0x4B018A8B, .fsqrt { ty := .bf16, rd := 5, rs1 := 6, rs2 := 0, sr := true, h := 2, sc := 1 }),
    (0x4D398A8B, .fmin { ty := .bf16, rd := 5, rs1 := 6, rs2 := 7, sr := true, h := 2, sc := 1 }),
    (0x4F398A8B, .fmax { ty := .bf16, rd := 5, rs1 := 6, rs2 := 7, sr := true, h := 2, sc := 1 }),
    (0x51398A8B, .fcmpEq { ty := .bf16, rd := 5, rs1 := 6, rs2 := 7, sr := true, h := 2, sc := 1 }),
    (0x53398A8B, .fcmpLt { ty := .bf16, rd := 5, rs1 := 6, rs2 := 7, sr := true, h := 2, sc := 1 }),
    (0x55398A8B, .fcmpLe { ty := .bf16, rd := 5, rs1 := 6, rs2 := 7, sr := true, h := 2, sc := 1 })] = true := by decide +kernel

theorem test_decode_cvt : decodes 32 [
    (0x53318A8F, .fcvt { dst := 2, src := 1, rd := 5, rs1 := 6, rm := 2, sat := true, sr := true, h := 2, sc := 1 })] = true := by decide +kernel

theorem test_decode_SB : decodes 32 [
    (0xA8398A91, .beq { rs1 := 6, rs2 := 7, imm := 677, sc := 1 }),
    (0xA9398A91, .bne { rs1 := 6, rs2 := 7, imm := 677, sc := 1 }),
    (0xAA398A91, .blt { rs1 := 6, rs2 := 7, imm := 677, sc := 1 }),
    (0xAB398A91, .bge { rs1 := 6, rs2 := 7, imm := 677, sc := 1 }),
    (0xAC398A91, .bltn { rs1 := 6, rs2 := 7, imm := 677, sc := 1 }),
    (0xAD398A91, .bgen { rs1 := 6, rs2 := 7, imm := 677, sc := 1 }),
    (0xA8398A9B, .sb { rs1 := 6, rs2 := 7, imm := 677, sc := 1 }),
    (0xA9398A9B, .sh { rs1 := 6, rs2 := 7, imm := 677, sc := 1 }),
    (0xAA398A9B, .sw { rs1 := 6, rs2 := 7, imm := 677, sc := 1 }),
    (0xAB398A9B, .sd { rs1 := 6, rs2 := 7, imm := 677, sc := 1 }),
    (0xA8018AE7, .bpany { rs1 := 6, rs2 := 0, imm := 677, sc := 1 }),
    (0xA9018AE7, .bpnone { rs1 := 6, rs2 := 0, imm := 677, sc := 1 })] = true := by decide +kernel

theorem test_decode_J : decodes 32 [
    (0x80000693, .jal { off := 4194307, sc := 1 })] = true := by decide +kernel

theorem test_decode_REP : decodes 32 [
    (0x80D55497, .rep { ostep := 257, s2 := true, s1 := false, sd := true, count := 341, xc := false, sc := 1 })] = true := by decide +kernel

theorem test_decode_M : decodes 32 [
    (0x4B524AA1, .lde { rd := 5, cs := 9, xi := 10, xj := 11, h0 := true, sc := 1 }),
    (0x6B524AA1, .ste { rd := 5, cs := 9, xi := 10, xj := 11, h0 := true, sc := 1 })] = true := by decide +kernel

theorem test_decode_Vf : decodes 32 [
    (0x407358A3, .lc { vd := 12, vs1 := 13, vs2 := 14, pg := 0, h := 2, sc := 1 }),
    (0x487358A3, .sc { vd := 12, vs1 := 13, vs2 := 14, pg := 0, h := 2, sc := 1 }),
    (0x437358A5, .vle { vd := 12, vs1 := 13, vs2 := 14, pg := 3, h := 2, sc := 1 }),
    (0x4B7358A5, .vse { vd := 12, vs1 := 13, vs2 := 14, pg := 3, h := 2, sc := 1 }),
    (0x537358A5, .vlse { vd := 12, vs1 := 13, vs2 := 14, pg := 3, h := 2, sc := 1 }),
    (0x437358A7, .vlxe { vd := 12, vs1 := 13, vs2 := 14, pg := 3, h := 2, sc := 1 }),
    (0x4B7358A7, .vsxe { vd := 12, vs1 := 13, vs2 := 14, pg := 3, h := 2, sc := 1 }),
    (0x437358D5, .vsll { vd := 12, vs1 := 13, vs2 := 14, pg := 3, h := 2, sc := 1 }),
    (0x4B7358D5, .vsrl { vd := 12, vs1 := 13, vs2 := 14, pg := 3, h := 2, sc := 1 }),
    (0x537358D5, .vsra { vd := 12, vs1 := 13, vs2 := 14, pg := 3, h := 2, sc := 1 }),
    (0x437358D7, .vand { vd := 12, vs1 := 13, vs2 := 14, pg := 3, h := 2, sc := 1 }),
    (0x4B7358D7, .vor { vd := 12, vs1 := 13, vs2 := 14, pg := 3, h := 2, sc := 1 }),
    (0x537358D7, .vxor { vd := 12, vs1 := 13, vs2 := 14, pg := 3, h := 2, sc := 1 }),
    (0x5B7358D7, .vsel { vd := 12, vs1 := 13, vs2 := 14, pg := 3, h := 2, sc := 1 })] = true := by decide +kernel

theorem test_decode_A : decodes 32 [
    (0xB03A4AA9, .amoadd { rd := 5, cs := 9, rs2 := 7, scope := 3, ord := 1, sc := 1 }),
    (0xB13A4AA9, .amoand { rd := 5, cs := 9, rs2 := 7, scope := 3, ord := 1, sc := 1 }),
    (0xB23A4AA9, .amoor { rd := 5, cs := 9, rs2 := 7, scope := 3, ord := 1, sc := 1 }),
    (0xB33A4AA9, .amoxor { rd := 5, cs := 9, rs2 := 7, scope := 3, ord := 1, sc := 1 }),
    (0xB43A4AA9, .amomin { rd := 5, cs := 9, rs2 := 7, scope := 3, ord := 1, sc := 1 }),
    (0xB53A4AA9, .amomax { rd := 5, cs := 9, rs2 := 7, scope := 3, ord := 1, sc := 1 }),
    (0xB63A4AA9, .amominn { rd := 5, cs := 9, rs2 := 7, scope := 3, ord := 1, sc := 1 }),
    (0xB73A4AA9, .amomaxn { rd := 5, cs := 9, rs2 := 7, scope := 3, ord := 1, sc := 1 }),
    (0xB83A4AA9, .amoswap { rd := 5, cs := 9, rs2 := 7, scope := 3, ord := 1, sc := 1 }),
    (0xB93A4AA9, .amocas { rd := 5, cs := 9, rs2 := 7, scope := 3, ord := 1, sc := 1 }),
    (0xBA3A4AA9, .amofadd { rd := 5, cs := 9, rs2 := 7, scope := 3, ord := 1, sc := 1 }),
    (0xBB024AA9, .ldAcq { rd := 5, cs := 9, rs2 := 0, scope := 3, ord := 1, sc := 1 }),
    (0x3C3A40AB, .stRel { rd := 0, cs := 9, rs2 := 7, scope := 3, ord := 2, sc := 1 }),
    (0xBD0000A9, .fence { rd := 0, cs := 0, rs2 := 0, scope := 3, ord := 1, sc := 1 })] = true := by decide +kernel

theorem test_decode_V : decodes 32 [
    (0x4B7358C1, .vadd { vd := 12, vs1 := 13, vs2 := 14, pg := 3, f2 := 1, h := 2, sc := 1 }),
    (0x4B7358C3, .vsub { vd := 12, vs1 := 13, vs2 := 14, pg := 3, f2 := 1, h := 2, sc := 1 }),
    (0x4B7358C5, .vmul { vd := 12, vs1 := 13, vs2 := 14, pg := 3, f2 := 1, h := 2, sc := 1 }),
    (0x4B7358C7, .vfma { vd := 12, vs1 := 13, vs2 := 14, pg := 3, f2 := 1, h := 2, sc := 1 }),
    (0x4B7358C9, .vfms { vd := 12, vs1 := 13, vs2 := 14, pg := 3, f2 := 1, h := 2, sc := 1 }),
    (0x4B7358CB, .vdiv { vd := 12, vs1 := 13, vs2 := 14, pg := 3, f2 := 1, h := 2, sc := 1 }),
    (0x4B7358CD, .vmin { vd := 12, vs1 := 13, vs2 := 14, pg := 3, f2 := 1, h := 2, sc := 1 }),
    (0x4B7358CF, .vmax { vd := 12, vs1 := 13, vs2 := 14, pg := 3, f2 := 1, h := 2, sc := 1 }),
    (0x4B7358D3, .vdot { vd := 12, vs1 := 13, vs2 := 14, pg := 3, f2 := 1, h := 2, sc := 1 }),
    (0x4B7358D9, .vcvt { vd := 12, vs1 := 13, vs2 := 14, pg := 3, f2 := 1, h := 2, sc := 1 }),
    (0x4B7358DB, .vcvtSat { vd := 12, vs1 := 13, vs2 := 14, pg := 3, f2 := 1, h := 2, sc := 1 }),
    (0x4B7358DD, .vperm { vd := 12, vs1 := 13, vs2 := 14, pg := 3, f2 := 1, h := 2, sc := 1 }),
    (0x4B7358E1, .vcmp { vd := 12, vs1 := 13, vs2 := 14, pg := 3, f2 := 1, h := 2, sc := 1 }),
    (0x4B1358E3, .vred { vd := 12, vs1 := 13, vs2 := 2, pg := 3, f2 := 1, h := 2, sc := 1 })] = true := by decide +kernel

theorem test_decode_Vu : decodes 32 [
    (0x4B0358D1, .vsqrt { vd := 12, vs1 := 13, pg := 3, f2 := 1, h := 2, sc := 1 }),
    (0x4B0B58D1, .vrsq { vd := 12, vs1 := 13, pg := 3, f2 := 1, h := 2, sc := 1 }),
    (0x4B1358D1, .vrcp { vd := 12, vs1 := 13, pg := 3, f2 := 1, h := 2, sc := 1 }),
    (0x4B1B58D1, .vabs { vd := 12, vs1 := 13, pg := 3, f2 := 1, h := 2, sc := 1 }),
    (0x4B2358D1, .vneg { vd := 12, vs1 := 13, pg := 3, f2 := 1, h := 2, sc := 1 }),
    (0x432B58D1, .vexp { vd := 12, vs1 := 13, pg := 3, f2 := 0, h := 2, sc := 1 }),
    (0x433358D1, .vexp2 { vd := 12, vs1 := 13, pg := 3, f2 := 0, h := 2, sc := 1 }),
    (0x433B58D1, .vlog2 { vd := 12, vs1 := 13, pg := 3, f2 := 0, h := 2, sc := 1 }),
    (0x4B0358DF, .vslide { vd := 12, vs1 := 13, pg := 3, f2 := 1, h := 2, sc := 1 }),
    (0x4B0B58DF, .vbcast { vd := 12, vs1 := 13, pg := 3, f2 := 1, h := 2, sc := 1 }),
    (0x4B1358DF, .vmovx { vd := 12, vs1 := 13, pg := 3, f2 := 1, h := 2, sc := 1 }),
    (0x4B1818DF, .viota { vd := 12, vs1 := 0, pg := 3, f2 := 1, h := 2, sc := 1 })] = true := by decide +kernel

theorem test_decode_Vp : decodes 32 [
    (0x402108E5, .pand { vd := 4, vs1 := 4, vs2 := 4, f2 := 0, h := 2, sc := 1 }),
    (0x412108E5, .por { vd := 4, vs1 := 4, vs2 := 4, f2 := 0, h := 2, sc := 1 }),
    (0x422108E5, .pxor { vd := 4, vs1 := 4, vs2 := 4, f2 := 0, h := 2, sc := 1 }),
    (0x430108E5, .pnot { vd := 4, vs1 := 4, vs2 := 0, f2 := 0, h := 2, sc := 1 }),
    (0x4C0108E5, .pfirst { vd := 4, vs1 := 4, vs2 := 0, f2 := 1, h := 2, sc := 1 }),
    (0x4D0118E5, .pcnt { vd := 12, vs1 := 4, vs2 := 0, f2 := 1, h := 2, sc := 1 }),
    (0x4E7348E5, .vwhile { vd := 4, vs1 := 13, vs2 := 14, f2 := 1, h := 2, sc := 1 })] = true := by decide +kernel

theorem test_decode_Ef : decodes 32 [
    (0x420022E9, .mwload { ca := 17, cb := 0, xc := 0, q := 2, h := 2, sc := 1 }),
    (0x4A0000E9, .mzero { ca := 0, cb := 0, xc := 0, q := 2, h := 2, sc := 1 }),
    (0x509800E9, .mstat { ca := 0, cb := 0, xc := 19, q := 0, h := 2, sc := 1 }),
    (0x429CA2F1, .cpy { ca := 17, cb := 18, xc := 19, q := 2, h := 2, sc := 1 }),
    (0x4A9CA2F1, .cpyw { ca := 17, cb := 18, xc := 19, q := 2, h := 2, sc := 1 }),
    (0x529CA2F1, .cpyb { ca := 17, cb := 18, xc := 19, q := 2, h := 2, sc := 1 }),
    (0x5A9CA2F1, .cpys { ca := 17, cb := 18, xc := 19, q := 2, h := 2, sc := 1 }),
    (0x429CA2F3, .cpym { ca := 17, cb := 18, xc := 19, q := 2, h := 2, sc := 1 }),
    (0x4A9C80F3, .cpf { ca := 0, cb := 18, xc := 19, q := 2, h := 2, sc := 1 }),
    (0x529822F3, .cfill { ca := 17, cb := 0, xc := 19, q := 2, h := 2, sc := 1 }),
    (0x420000F5, .cpresume { ca := 0, cb := 0, xc := 0, q := 2, h := 2, sc := 1 }),
    (0x4A0002F5, .cpabort { ca := 1, cb := 0, xc := 0, q := 2, h := 2, sc := 1 }),
    (0x529800F5, .cpstat { ca := 0, cb := 0, xc := 19, q := 2, h := 2, sc := 1 }),
    (0x580480F5, .qfence { ca := 0, cb := 18, xc := 0, q := 0, h := 2, sc := 1 })] = true := by decide +kernel

theorem test_decode_E : decodes 32 [
    (0x489922EB, .mma { ca := 17, cb := 4, xc := 19, q := 0, f2 := 1, h := 2, sc := 1 }),
    (0x4A0022ED, .mstore { ca := 17, cb := 0, xc := 0, q := 2, f2 := 1, h := 2, sc := 1 })] = true := by decide +kernel

theorem test_decode_Eq : decodes 32 [
    (0x489C80EF, .mrdrow { ca := 0, cb := 18, xc := 19, f2 := 1, h := 2, sc := 1 }),
    (0x499C80EF, .mwrrow { ca := 0, cb := 18, xc := 19, f2 := 1, h := 2, sc := 1 }),
    (0x409822F7, .barinit { ca := 17, cb := 0, xc := 19, f2 := 0, h := 2, sc := 1 }),
    (0x419822F7, .barexp { ca := 17, cb := 0, xc := 19, f2 := 0, h := 2, sc := 1 }),
    (0x429822F7, .bararr { ca := 17, cb := 0, xc := 19, f2 := 0, h := 2, sc := 1 }),
    (0x439822F7, .barwait { ca := 17, cb := 0, xc := 19, f2 := 0, h := 2, sc := 1 }),
    (0x449822F7, .barflg { ca := 17, cb := 0, xc := 19, f2 := 0, h := 2, sc := 1 }),
    (0x459822F7, .bankfmt { ca := 17, cb := 0, xc := 19, f2 := 0, h := 2, sc := 1 }),
    (0x460022F7, .splock { ca := 17, cb := 0, xc := 0, f2 := 0, h := 2, sc := 1 }),
    (0x470022F7, .spunlock { ca := 17, cb := 0, xc := 0, f2 := 0, h := 2, sc := 1 })] = true := by decide +kernel

theorem test_decode_lane : decodes 16 [
    (0xB980, .vaddF32C16 { vd := 12, vs2 := 14, p1 := true }),
    (0xB982, .vsubF32C16 { vd := 12, vs2 := 14, p1 := true }),
    (0xB984, .vmulF32C16 { vd := 12, vs2 := 14, p1 := true }),
    (0xB986, .vminF32C16 { vd := 12, vs2 := 14, p1 := true }),
    (0xB988, .vmaxF32C16 { vd := 12, vs2 := 14, p1 := true }),
    (0xB98A, .vaddS32C16 { vd := 12, vs2 := 14, p1 := true }),
    (0xB98C, .vsubS32C16 { vd := 12, vs2 := 14, p1 := true }),
    (0xB98E, .vandC16 { vd := 12, vs2 := 14, p1 := true }),
    (0xB990, .vorC16 { vd := 12, vs2 := 14, p1 := true }),
    (0xB992, .vxorC16 { vd := 12, vs2 := 14, p1 := true }),
    (0xB994, .vmovC16 { vd := 12, vs2 := 14, p1 := true }),
    (0xB996, .vnegF32C16 { vd := 12, vs2 := 14, p1 := true }),
    (0xB998, .vabsF32C16 { vd := 12, vs2 := 14, p1 := true }),
    (0xB99A, .vmacF32C16 { vd := 12, vs2 := 14, p1 := true }),
    (0xB99C, .vsllS32C16 { vd := 12, vs2 := 14, p1 := true }),
    (0xB99E, .vcvtBf16F32C16 { vd := 12, vs2 := 14, p1 := true })] = true := by decide +kernel

/-! States of one strand, in context 0 of core 0, whose partition maps virtual address 0 to the start of GDDR7 and 0x40000000 to the window of
core 0. -/

/-- The strand at the start of its code, at cycle 100. -/
def s0 : State :=
  let s := State.reset.withFetchWord 32 0
  let s := s.setPart 0 { s.part 0 with desc := { (s.part 0).desc with n1 := 1 } }
  { s with cycle := 100, mem := memPut (memPut (memPut s.mem 0x1000 8 0x43) 0x1008 8 0x3001) 0x3000 8 (0x3F0000000000 + 0x43) }

/-- The state with its strand changed. -/
def on (s : State) (f : Strand → Strand) : State := s.setMe (f s.me)

/-- A tagged capability with all rights but SYS. -/
def tcap (fmt base : Nat) (dims : List (Int × Int)) : Cap :=
  ({ tag := true, base := base, gen := 0, objid := 0, fmt := fmt, sparse := 0, layout := 0, perms := 0x1FFF, reach := 3, otype := 0,
     dims := dims } : View).cap

/-- The element at a virtual address. -/
def elemAt (s : State) (va : Nat) (use : Use) : Elem :=
  match translate s (s.pidOf s.cur) va use with
  | .ok (l, pa) => { va := va, pa := pa, leaf := l, integ := none }
  | .error _ => { va := va, pa := 0, leaf := { at_ := 0, entry := 0, bits := 0, path := [] }, integ := none }

theorem lockFree_of_nil {s : State} (h : s.myCore.locks = []) : s.lockFree := by
  intro e he; rw [h] at he; cases he

/-- An R instruction's fields. -/
def ra (rd rs1 rs2 : Reg) : RArgs := { rd := rd, rs1 := rs1, rs2 := rs2, sr := false, h := 0, sc := 1 }

/-- An instruction of no operand in the I format. -/
def ia (rd rs1 : Reg) (imm : BitVec 10) : IArgs := { rd := rd, rs1 := rs1, imm := imm, sc := 1 }

/-- Equality of answers can be decided when it can of results and of errors. -/
@[reducible] def exceptEq {α β : Type} [DecidableEq α] [DecidableEq β] : DecidableEq (Except α β)
  | .ok a, .ok b => if h : a = b then .isTrue (h ▸ rfl) else .isFalse fun k => h (Except.ok.inj k)
  | .error a, .error b => if h : a = b then .isTrue (h ▸ rfl) else .isFalse fun k => h (Except.error.inj k)
  | .ok _, .error _ => .isFalse nofun
  | .error _, .ok _ => .isFalse nofun

/-- A proposition about answers of `translate` holds when it evaluates to true. -/
theorem holds {p : Prop} (d : DecidableEq (Except PageErr (Leaf × Nat)) → Decidable p) (h : (d exceptEq).decide = true) : p :=
  @of_decide_eq_true p (d exceptEq) h

/-- An answer with a property exists when evaluation gives one. -/
theorem exists_ok {α β : Type} {e : Except α β} {p : β → Prop} [DecidablePred p] (h : e.toOption.any (fun a => decide (p a)) = true) : ∃ a, e = .ok a ∧ p a := by
  cases e with
  | ok a => exact ⟨a, rfl, of_decide_eq_true h⟩
  | error _ => cases h

/-! Statements: states and operands that meet their hypotheses. -/

theorem hyp_Integer :
    (∃ p, integerTwo (.divn { ra 5 6 6 with sr := true }) = some p ∧ Ready p.reads p.writes p.lat s0)
    ∧ (∃ p, integerCount (.clz (ra 31 5 0)) = some p ∧ Ready p.reads p.writes p.lat s0)
    ∧ ∃ p, integerImm (.srai (ia 0 5 63)) = some p ∧ Ready p.reads p.writes p.lat s0 :=
  ⟨⟨_, rfl, by decide +kernel⟩, ⟨_, rfl, by decide +kernel⟩, ⟨_, rfl, by decide +kernel⟩⟩

theorem hyp_NopCompletes : Ready [] [] 0 s0 := by decide +kernel

theorem hyp_FloatScalar : ∃ p, floatScalar (.ffma { ty := .fp16, rd := 5, rs1 := 6, rs2 := 7, sr := false, h := 0, sc := 0 }) = some p
    ∧ Ready p.reads p.writes p.lat s0 := ⟨_, rfl, by decide +kernel⟩

theorem hyp_VectorArith : ∃ p, vectorArith (.vadd { vd := 1, vs1 := 1, vs2 := 2, pg := 0, f2 := 3, h := 0, sc := 0 }) = some p
    ∧ Ready p.reads p.writes p.lat s0 := ⟨_, rfl, by decide +kernel⟩

theorem hyp_VectorMove :
    (∃ p, vectorMove (.vsel { vd := 1, vs1 := 2, vs2 := 3, pg := 7, h := 0, sc := 0 }) = some p ∧ Ready p.reads p.writes p.lat s0)
    ∧ (∃ p, predicate (.vwhile { vd := 7, vs1 := 2, vs2 := 3, f2 := 3, h := 0, sc := 0 }) = some p ∧ Ready p.reads p.writes p.lat s0)
    ∧ ∃ p, capabilityQuery (.csubset (ra 5 6 7)) = some p ∧ Ready p.reads p.writes p.lat s0 :=
  ⟨⟨_, rfl, by decide +kernel⟩, ⟨_, rfl, by decide +kernel⟩, ⟨_, rfl, by decide +kernel⟩⟩

/-- 64 bytes at 0x4000 in c1, a rank 2 tensor of 32-bit integers in c2, capabilities in c3, a sealed capability in c4; x2 is 1. -/
def sm : State := on s0 fun t => ((((t.setC 1 (tcap 0 0x4000 [(64, 1)])).setC 2 (tcap 5 0x4000 [(4, 1), (2, 8)])).setC 3
  (tcap 0x20 0x4000 [(4, 1)])).setC 4 ((tcap 0 0x4000 [(64, 1)]).withOtype 5)).setX 2 1

theorem hyp_ScalarAccess :
    (Ready [rc 1] [rx 5] 0 sm ∧ ByteReach sm 1 7 8 useRead (elemAt sm 0x4038 useRead))
    ∧ (Ready [rc 1, rx 5] [] 0 sm ∧ ByteReach sm 1 0 1 useWrite (elemAt sm 0x4000 useWrite))
    ∧ (byteFault sm 1 8 8 useRead).isSome = true ∧ (byteFault sm 1 (-1) 1 useWrite).isSome = true ∧ (byteFault sm 4 0 1 useRead).isSome = true
    ∧ (Ready [rc 2, rx 2, rx 2] [rx 5] 0 sm ∧ ElemReach sm 2 [1, 1] useRead (elemAt sm 0x4024 useRead))
    ∧ Ready [rc 2, rx 2, rx 2, rx 5] [] 0 sm ∧ ElemReach sm 2 [1, 1] useWrite (elemAt sm 0x4024 useWrite) := by
  dsimp only [ByteReach, ElemReach, Reached]
  exact holds (fun _ => inferInstance) (by decide +kernel)

theorem hyp_CapabilityAccess :
    let c := sm.me.readC 3
    let e := elemAt sm 0x4040 useRead
    let u : Use := { write := true, tagged := true, raw := false }
    Ready [rc 3, rx 2] [rc 5] 0 sm ∧ Ready [rc 3, rx 2, rc 1] [] 0 sm ∧ Allowed sm c 0x0001 true
    ∧ Allowed sm c 0x000A true ∧ InBounds c [1] ∧ Reached sm useRead 64 (some c.fmt) c.objid (elementAddr c [1]) e
    ∧ (sm.me.readC 1).tag = true ∧ staleRecord sm sm.myPart (sm.me.readC 1) = none ∧ (sm.me.readC 1).reach ≠ 0
    ∧ Reached sm u 64 (some c.fmt) c.objid (elementAddr c [1]) (elemAt sm 0x4040 u) ∧ sm.isPeer e.pa = false := by
  dsimp only [ByteReach, ElemReach, Reached]
  exact holds (fun _ => inferInstance) (by decide +kernel)

theorem hyp_VectorAccess :
    let c := sm.me.readC 1
    let ls := accessLanes sm 1 1 false
    let t := on sm fun t => t.setP 1 0x8000000000000001
    let ms := accessLanes t 1 1 false
    Ready (rc 1 :: [rx 0] ++ [rp 1]) [rv 5] 0 sm ∧ Ready (rc 1 :: [rx 0] ++ [rv 5, rp 1]) [] 0 sm ∧ Allowed sm c 0x0001 (elementShape c)
    ∧ Allowed sm c 0x0002 (elementShape c) ∧ ls = [] ∧ ms = [0, 63]
    ∧ (∀ l ∈ ms, InBounds c [Int.ofNat l] ∧ Reached t useWrite 1 (some c.fmt) c.objid (elementAddr c [Int.ofNat l]) (elemAt t (0x4000 + l) useWrite)) := by
  dsimp only [ByteReach, ElemReach, Reached]
  exact holds (fun _ => inferInstance) (by decide +kernel)

theorem hyp_LaneOperations : ∃ j p, laneOf (.vmacF32C16 { vd := 1, vs2 := 2, p1 := true }) = some j
    ∧ ((vectorArith j).orElse fun _ => vectorMove j) = some p ∧ Ready p.reads p.writes p.lat s0 := ⟨_, _, rfl, rfl, by decide +kernel⟩

/-- A REP of three repetitions of ADD at offset 4. -/
def rep3 : RepArgs := { ostep := 0, s2 := false, s1 := true, sd := true, count := 3, xc := false, sc := 1 }
/-- The REP at the pc, the ADD behind it. -/
def srep : State := { s0 with mem := memPut s0.mem 0x2004 4 0x00314A01 }

theorem hyp_RepRepetitions :
    (∃ h, fetchAt srep (srep.me.pc + 4) = .ok h ∧ (repCheck rep3 h.1 3).toOption = some (0x00314A01, 4))
    ∧ srep.me.rep = none ∧ Ready [] [] 0 srep ∧ srep.me.repdone.toNat < 3
    ∧ (let t := on srep fun t => { t with rep := some { args := rep3, n := 3, word := 0x00314A01, len := 4 }, repdone := 2 }
      decodeWord (0x00314A01 + 2 * (2 ^ 9 + 2 ^ 14)) = .ok (.whole (.add { rd := 7, rs1 := 7, rs2 := 6, sr := false, h := 0, sc := 0 })) 4
      ∧ Ready [rx 7, rx 6] [rx 7] 2 t) := by
  refine ⟨exists_ok ?_, ?_⟩
  · decide +kernel
  · decide +kernel

theorem hyp_RepRepetitions_first : let go : RepArgs := { rep3 with sc := 0 }
    ∃ v, repetition { args := go, n := 3, word := 0x00314A01, len := 4 } (srep.setMe (srep.me.issued none [])) = .ok v ∧ v.me.waiting = false :=
  exists_ok (by decide +kernel)

theorem hyp_ControlTransfer :
    (∃ a rs f, branchOf (.bge ⟨1, 2, 3, 0⟩) = some (a, rs, f) ∧ Ready rs [] 0 sm ∧ f sm.me = false)
    ∧ (∃ a rs f, branchOf (.bgen ⟨2, 1, 3, 0⟩) = some (a, rs, f) ∧ Ready rs [] 0 sm ∧ f sm.me = true)
    ∧ InCode sm.me.pcc (sm.me.pc + 2 * 3) ∧ InCode sm.me.pcc (sm.me.pc + 2 * 0) ∧ ¬InCode sm.me.pcc (sm.me.pc + 2 * -1)
    ∧ Ready [] [rx 1] 0 sm ∧ Ready [rx 5] [rx 5] 0 sm ∧ Ready [rx 1, rx 2] [] 0 sm ∧ Ready [rp 7] [] 0 sm
    ∧ (let t := on sm fun t => t.setC 5 (codeCap 0x2000)
      Ready [rx 5, rc 5] [rx 5] 0 t ∧ Allowed t (t.me.readC 5) 0x0020 (codeShape (t.me.readC 5)) ∧ InCode (t.me.readC 5) 4094 ∧ (4094 : Int) % 2 = 0) := by
  refine ⟨⟨_, _, _, rfl, by decide +kernel, by decide +kernel⟩, ⟨_, _, _, rfl, by decide +kernel, by decide +kernel⟩, ?_⟩
  decide +kernel

/-- The strand without SYS. -/
def su : State := on s0 fun t => { t with pcc := { tag := true, bits := ({ t.pcc.view with perms := 0x0020 } : View).cap.bits } }

theorem hyp_TrapInstructions : trapOf (.ecall (ia 0 0 1023)) = some { cause := .ecall, tval := 1023, tcap := 0 } ∧ Ready [] [] 0 s0
    ∧ needsSys (.tret (ia 0 0 0)) = true ∧ su.me.sys = false ∧ needsHead (.reap (ra 5 6 0)) = true ∧ ({ s0 with cur := 15 } : State).cur % 16 ≠ 0 := by
  decide +kernel

theorem hyp_CsrPrivilege : csrKnown 0x3FF = false ∧ csrKnown 0x021 = true ∧ csrPriv 0x004 = true ∧ csrKnown 0x004 = true ∧ su.me.sys = false
    ∧ ({ s0 with cur := 1 } : State).cur % 16 ≠ 0 := by decide +kernel

/-- The handlers of TVEC, sealed with one type, and a frame of a trap above one of a call. -/
def st : State :=
  let s := s0.setPart 0 { s0.part 0 with tvecCode := (codeCap 0x2000).withOtype 9, tvecData := (tcap 0 0x4000 [(64, 1)]).withOtype 9 }
  on s fun t => { t with frames := [
    { pcc := codeCap 0x2000, retoff := 4, c30 := Cap.null, c31 := Cap.null, repsave := 0, trap := true },
    { pcc := codeCap 0x2000, retoff := 4, c30 := Cap.null, c31 := Cap.null, repsave := 0, trap := false }] }

theorem hyp_TrapEntryReturn : swf Strand.reset st.strands = true ∧ st.me.frames.length < 32 ∧ tvecOk st st.myPart = true ∧ st.me.droppedBy (rc 31) = []
    ∧ Ready [] [rc 30, rc 31] 0 st ∧ st.me.sys = true ∧ (st.me.frames.headD ⟨Cap.null, 0, Cap.null, Cap.null, 0, false⟩).trap = true
    ∧ (∀ f ∈ s0.me.frames, f.trap = false)
    ∧ (let u := on st fun t => { t with frames := t.frames.reverse }
      (u.me.frames.headD ⟨Cap.null, 0, Cap.null, Cap.null, 0, true⟩).trap = false ∧ (∃ g ∈ u.me.frames.tail, g.trap = true)) := by decide +kernel

theorem hyp_CsrAccess : CsrAllowed s0 0x021 false ∧ Ready [] [rx 5] 2 s0 ∧ CsrAllowed s0 0x050 false ∧ Ready [] [rc 5] 2 s0
    ∧ CsrAllowed s0 0x004 false ∧ Ready [] [rc 30, rc 31] 2 s0 ∧ csrWriter (.csrw (ia 0 1 0x051)) ≠ none ∧ CsrAllowed s0 0x051 true
    ∧ Ready [rx 1] [] 0 s0 ∧ s0.Canonical ∧ (s0.pidOf s0.cur).isSome = true ∧ rwFields 0x051 = some 0xF800FFFFFFFFFF80
    ∧ csrWriter (.csrc (ia 0 1 0x07B)) ≠ none ∧ rwFields 0x07B ≠ none ∧ CsrAllowed s0 0x010 true ∧ rwFields 0x010 = none
    ∧ CsrAllowed s0 0x004 true ∧ Ready [rc 30, rc 31] [] 0 s0 ∧ CsrAllowed s0 0x050 true ∧ Ready [rc 31] [] 0 s0 ∧ s0.lockFree := by
  refine ⟨by decide +kernel, by decide +kernel, by decide +kernel, by decide +kernel, by decide +kernel, by decide +kernel, nofun, by decide +kernel,
    by decide +kernel, by decide +kernel, by decide +kernel, by decide +kernel, nofun, nofun, by decide +kernel, by decide +kernel, by decide +kernel,
    by decide +kernel, by decide +kernel, by decide +kernel, lockFree_of_nil rfl⟩

/-- More operands: a type key in c5, an empty-able run from address 0 downwards in c6, numbers in c7 and c8, 16 words of the scratchpad in c9, a
sealed pair in c10 and c11, a bank in c12, code in c13; the operand of CSLICE in x3. -/
def sk : State := on sm fun t =>
  let key : View := {
    tag := true, base := 0, gen := 0, objid := 0xFFFFF, fmt := 0x20, sparse := 0, layout := 0, perms := 0x0C00, reach := 3, otype := 5
    dims := [(0, 0)] }
  let t := t.setC 5 key.cap
  let t := ((t.setC 6 (tcap 0 0 [(4, -1)])).setC 7 (tcap 5 0x4000 [(4, 1)])).setC 8 (tcap 0x12 0x4000 [(4, 1)])
  let t := ((t.setC 9 (tcap 7 0x40000000 [(16, 1)])).setC 10 ((codeCap 0x2000).withOtype 9)).setC 11 ((tcap 0 0x4000 [(64, 1)]).withOtype 9)
  let t := (t.setC 12 (tcap 0 0x40000000 [(65536, 1)])).setC 13 (codeCap 0x2000)
  t.setX 3 (16 * 2 ^ 8 + 48 * 2 ^ 28)

/-- CSLICE of c[rs1] by x[rs2] into c14. -/
def slice (rs1 rs2 : Reg) : Instr := .cslice (ra 14 rs1 rs2)

theorem hyp_Derivation :
    (∃ a op, derivation (slice 1 3) = some (a, op) ∧ Ready [rc a.rs1, rx a.rs2] [rc a.rd] 3 sk
      ∧ derivable (slice 1 3) (sk.me.readC 1) (sk.me.readX 3) = true
      ∧ ((op (sk.me.readC 1).view (sk.me.readX 3)).any fun v => shaped v && decide (0 ≤ v.base) && decide (v.base < 2 ^ 55)) = true)
    ∧ (∃ a op, derivation (slice 6 2) = some (a, op) ∧ Ready [rc a.rs1, rx a.rs2] [rc a.rd] 3 (on sk fun t => t.setX 2 0x100)
      ∧ derivable (slice 6 2) (sk.me.readC 6) 0x100 = true
      ∧ ((op (sk.me.readC 6).view 0x100).any fun v => shaped v && decide (v.base < 0)) = true)
    ∧ ∃ a op, derivation (slice 1 2) = some (a, op) ∧ Ready [rc a.rs1, rx a.rs2] [rc a.rd] 3 (on sk fun t => t.setX 2 (65 * 2 ^ 28))
      ∧ derivable (slice 1 2) (sk.me.readC 1) (65 * 2 ^ 28) = true ∧ (op (sk.me.readC 1).view (65 * 2 ^ 28)).all (fun v => !shaped v) = true :=
  ⟨⟨_, _, rfl, by decide +kernel, by decide +kernel, by decide +kernel⟩, ⟨_, _, rfl, by decide +kernel, by decide +kernel, by decide +kernel⟩,
    ⟨_, _, rfl, by decide +kernel, by decide +kernel, by decide +kernel⟩⟩

theorem hyp_DerivationNarrows : ∃ a op, derivation (slice 1 3) = some (a, op) ∧ derivable (slice 1 3) (sk.me.readC 1) (sk.me.readX 3) = true
    ∧ (op (sk.me.readC 1).view (sk.me.readX 3)).any shaped = true ∧ (sk.me.readC 1).sparse = 0 ∧ (sk.me.readC 1).fmt ≠ 0x18
    ∧ ∀ idx, InBounds (sk.me.readC 1) idx → 0 ≤ elementAddr (sk.me.readC 1) idx ∧ elementAddr (sk.me.readC 1) idx < 2 ^ 55 := by
  refine ⟨_, _, rfl, by decide +kernel, by decide +kernel, by decide +kernel, by decide +kernel, fun idx h => ?_⟩
  have hr : (sk.me.readC 1).rank = 1 := by decide +kernel
  have hb : (sk.me.readC 1).base = 0x4000 := by decide +kernel
  have he : (sk.me.readC 1).extent 0 = 64 := by decide +kernel
  have hs : (sk.me.readC 1).stride 0 = 1 := by decide +kernel
  have hw : esize (sk.me.readC 1).fmt = 1 := by decide +kernel
  have h0 := h 0 (by omega)
  rw [he] at h0
  unfold elementAddr
  simp only [hr, hb, hw, List.range_succ, List.range_zero, List.nil_append, List.map_cons, List.map_nil, List.sum_cons, List.sum_nil, hs]
  omega

theorem hyp_SealingAndCompartments :
    (∃ a f, sealing (.cbind (ra 14 1 5)) = some (a, f) ∧ Ready [rc a.rs1, rc a.rs2] [rc a.rd] 0 sk
      ∧ (f (sk.me.readC 1) (sk.me.readC 5)).isSome = true)
    ∧ (∃ a f, sealing (.cunbind (ra 14 4 5)) = some (a, f) ∧ Ready [rc a.rs1, rc a.rs2] [rc a.rd] 0 sk
      ∧ (f (sk.me.readC 4) (sk.me.readC 5)).isSome = true)
    ∧ (Ready [rx 2] [rc 14] 0 sk ∧ sk.me.sys = true ∧ 0 < (sk.me.readX 2).toNat ∧ (sk.me.readX 2).toNat ≤ 4095)
    ∧ (let ck := sk.me.readC 10
      let cd := sk.me.readC 11
      Ready [rc 10, rc 11, rc 30, rc 31] wiped 0 sk ∧ sk.me.RegsOk ∧ ck.tag = true ∧ cd.tag = true ∧ ck.otype ≠ 0 ∧ cd.otype = ck.otype
        ∧ staleRecord sk sk.myPart ck = none ∧ staleRecord sk sk.myPart cd = none ∧ ck.perms.getLsbD 5 = true ∧ codeShape ck = true
        ∧ sk.me.frames.length < 32)
    ∧ (let u := on st fun t => { t with frames := t.frames.reverse }
      Ready [] wiped 0 u ∧ u.me.RegsOk ∧ u.me.frames ≠ [] ∧ (u.me.frames.headD ⟨Cap.null, 0, Cap.null, Cap.null, 0, true⟩).trap = false) := by
  refine ⟨⟨_, _, rfl, by decide +kernel, by decide +kernel⟩, ⟨_, _, rfl, by decide +kernel, by decide +kernel⟩, ?_⟩
  decide +kernel

theorem hyp_Atomics :
    (Ready [rc 7, rx 2] [rx 5] 0 sk ∧ CanRelease sk 3 5
      ∧ AtomicReach sk 7 (decide ((sk.me.readC 7).sparse = 0) && decide (5 ≤ (sk.me.readC 7).fmt) && decide ((sk.me.readC 7).fmt ≤ 8))
        (elemAt sk 0x4000 useWrite))
    ∧ Ready [rc 7, rx 2, rx 5] [rx 5] 0 sk
    ∧ Ready [rc 8, rx 2] [rx 5] 0 sk ∧ AtomicReach sk 8 (decide ((sk.me.readC 8).sparse = 0) && decide ((sk.me.readC 8).fmt = 0x12))
        (elemAt sk 0x4000 useWrite) := by
  dsimp only [AtomicReach, Reached]
  exact holds (fun _ => inferInstance) (by decide +kernel)

theorem hyp_OrderedAccess :
    (Ready [rc 7] [rx 5] 0 sk ∧ ElemReach sk 7 [] useRead (elemAt sk 0x4000 useRead))
    ∧ (Ready [rc 7, rx 2] [] 0 sk ∧ CanRelease sk 2 5 ∧ ElemReach sk 7 [] useWrite (elemAt sk 0x4000 useWrite))
    ∧ Ready [] [] 0 sk ∧ CanRelease sk 3 1 := by
  dsimp only [ElemReach, Reached]
  exact holds (fun _ => inferInstance) (by decide +kernel)

/-- The second word of the scratchpad. -/
def word1 (use : Use) : Elem := elemAt sk 0x40000008 use

theorem hyp_FullEmpty :
    (Settled sk ∧ Ready [rc 9, rx 2] [rx 5] 0 sk ∧ WordReach sk (ra 5 9 2) 0x0081 useRead (word1 useRead) ∧ sk.fullBit (word1 useRead).pa = false)
    ∧ (let t := sk.setFe 0x3F0000000008 true true
      Settled t ∧ Ready [rc 9, rx 2] [rx 5] 0 t ∧ WordReach t (ra 5 9 2) 0x0081 useRead (word1 useRead) ∧ t.fullBit (word1 useRead).pa = true
        ∧ t.waiterBit (word1 useRead).pa = true ∧ Ready [rc 9, rx 2, rx 5] [] 0 t ∧ WordReach t (ra 5 9 2) 0x0082 useWrite (word1 useWrite))
    ∧ (Ready [rc 9, rx 2, rx 5] [] 0 sk ∧ WordReach sk (ra 5 9 2) 0x0082 useWrite (word1 useWrite) ∧ sk.fullBit (word1 useWrite).pa = false)
    ∧ (Ready [rc 9, rx 2, rx 5] [rx 5] 0 sk ∧ WordReach sk (ra 5 9 2) 0x0083 useWrite (word1 useWrite))
    ∧ sk.bankOf (word1 useRead).pa = some (0, 0) := by
  dsimp only [WordReach, Reached]
  exact holds (fun _ => inferInstance) (by decide +kernel)

theorem hyp_SharedRegisters : Ready [rx 1] [] 0 sk ∧ Ready [] [rx 5] 2 sk ∧ sk.myCore.gEmpty.getLsbD 15 = false
    ∧ (let t := sk.setMyCore { sk.myCore with gEmpty := 0x8000 }
      Ready [] [rx 5] 2 t ∧ t.myCore.gEmpty.getLsbD 15 = true) := by decide +kernel

/-- A recipe slot 0 that recomputes x5 as x6 plus x7, x5 tied to it; x5 may be dropped. -/
def sr : State := on s0 fun t => { t with recipes := [(0, [0x00398A01])], ties := [(5, 1)] }

theorem hyp_Recipes :
    (Ready [] [] 0 s0 ∧ (∃ r, recordWords { s0 with mem := memPut s0.mem 0x2004 4 0x00398A01 } (s0.me.pc + 4) 1 = .ok r ∧ r.1 = [0x00398A01]))
    ∧ (Ready [] [] 0 sr ∧ (recipeDest (sr.me.recipe 0)).any (fun d => d.cls == .x) = true ∧ rx 9 ∉ sr.me.sources 0 ∧ tieKey (rx 9) = some 9)
    ∧ (sr.me.mayDrop (rx 9) = false ∧ sr.me.mayDrop (rx 5) = true)
    ∧ (let t := on sr fun t => { t with ties := [(44, 1)], recipes := [(0, [0x4B7358C1])] }
      Ready [] [] 0 t ∧ t.me.mayDrop (rv 12) = true)
    ∧ (let t := on sr fun t => { t with dropX := 32 }
      ∃ p q, plainOf (.add (ra 8 5 6)) = some p ∧ decodeWord 0x00398A01 = .ok (.whole (.add { rd := 5, rs1 := 6, rs2 := 7, sr := false, h := 0, sc := 0 })) 4
        ∧ plainOf (.add { rd := 5, rs1 := 6, rs2 := 7, sr := false, h := 0, sc := 0 }) = some q ∧ rx 5 ∈ p.reads ∧ t.me.isDropped (rx 5) = true
        ∧ t.me.recipe (t.me.tieOf (rx 5) - 1) = [0x00398A01] ∧ q.sync = none ∧ q.writes.head? = some (rx 5)
        ∧ (∀ k ∈ q.reads, t.me.isDropped k = false ∧ t.me.isFull k = true)
        ∧ Ready p.reads p.writes p.lat (t.setMe (t.me.setReg 5 (.x 13)))) := by
  refine ⟨⟨by decide +kernel, exists_ok (by decide +kernel)⟩, by decide +kernel, by decide +kernel, by decide +kernel, ⟨_, _, rfl, ?_, rfl, ?_⟩⟩
  · decide +kernel
  · decide +kernel

theorem hyp_Barriers :
    (let t := sk.setMyCore { sk.myCore with bfmt := [(0, 0x47)] }
     let b := on sk fun t => t.setX 5 4095;
      Settled b ∧ Ready [rc 9, rx 5] [] 0 b ∧ BarrierReach b { ca := 9, cb := 0, xc := 5, f2 := 0, h := 0, sc := 0 } 0x0083 useWrite
        (elemAt sk 0x40000000 useWrite) ∧ 0 < (b.me.readX 5).toNat ∧ (b.me.readX 5).toNat < 4096
      ∧ BarrierReach sk { ca := 9, cb := 0, xc := 2, f2 := 0, h := 0, sc := 0 } 0x0081 useRead (elemAt sk 0x40000000 useRead)
      ∧ (sk.barrier 0x3F0000000000).phase ≠ (sk.me.readX 2).getLsbD 0 ∧ (sk.barrier 0x3F0000000000).phase = (sk.me.readX 1).getLsbD 0
      ∧ Ready [rc 9] [rx 5] 0 sk ∧ (sk.barrier 0x3F0000000000).arr = 0
      ∧ (let u := sk.updateBarrier 0 0x3F0000000000 false { count := 0, flags := 0, exp := 4095, phase := true, arr := 4095, pend := 0 }
        (u.barrier 0x3F0000000000).arr ≠ 0)
      ∧ t.myCore.bfmtOf 0 = 0x47)
    ∧ (sk.bankOf 0x3F0000000000 = some (0, 0) ∧ sk.bankOf (0x3F0000000000 + 15) = some (0, 0) ∧ Memory.wf sk.mem
      ∧ ∀ r ∈ (sk.core 0).arrivals, r.pa ≠ 0x3F0000000000) := by
  dsimp only [BarrierReach, Reached]
  exact holds (fun _ => inferInstance) (by decide +kernel)

/-- Strand 0 about to write format 0x51 to bank 0. -/
def sbf : State := on sk fun t => t.setX 5 0x51

/-- A MWLOAD of that bank waits in the matrix queue. -/
def sbfBusy : State := sbf.withMat (.mwload false false) (sbf.me.readC 12) 12 none [] []

/-- `FormatReach` at a bank that no strand has locked, as it evaluates. -/
abbrev formatFree (s : State) (a : EqArgs) (b : Nat) : Prop :=
  Settled s ∧ Ready [rc a.ca, rx a.xc] [] 0 s ∧ Allowed s (s.me.readC a.ca) 0x0083 (anyShape (s.me.readC a.ca)) ∧ InBounds (s.me.readC a.ca) []
    ∧ exactBank s (coreOf s.cur) (s.me.readC a.ca) = some b ∧ (s.me.readX a.xc).toNat < 256
    ∧ (fmtBits ((s.me.readX a.xc).toNat % 64)).isSome = true ∧ s.myCore.lockOf b = none

theorem formatReach_of {s a b} : formatFree s a b → FormatReach s a b
  | ⟨h1, h2, h3, h4, h5, h6, h7, h8⟩ => ⟨h1, h2, h3, h4, h5, h6, h7, fun l h => by rw [h8] at h; cases h⟩

/-- BANKFMT of c12 by x5. -/
def bf : EqArgs := { ca := 12, cb := 0, xc := 5, f2 := 0, h := 0, sc := 0 }

theorem hyp_Banks_format : FormatReach sbf bf 0 ∧ addressed sbf 0 (fun k => decide (k = 0)) = false
    ∧ FormatReach sbfBusy bf 0 ∧ addressed sbfBusy 0 (fun k => decide (k = 0)) = true :=
  ⟨formatReach_of (by decide +kernel), by decide +kernel, formatReach_of (by decide +kernel), by decide +kernel⟩

theorem hyp_Banks :
    (let a : EqArgs := { ca := 12, cb := 0, xc := 0, f2 := 0, h := 0, sc := 0 }
      let mine := sk.setMyCore { sk.myCore with locks := [(0, some { holder := 0, count := 255 })] }
      let other := sk.setMyCore { sk.myCore with locks := [(0, some { holder := 3, count := 0 })] }
      Settled sk ∧ Ready [rc 12] [] 0 sk ∧ LockReach sk a 0 ∧ sk.myCore.lockedBy sk.cur = none ∧ sk.myCore.lockOf 0 = none
        ∧ Settled mine ∧ Ready [rc 12] [] 0 mine ∧ LockReach mine a 0 ∧ mine.myCore.lockedBy mine.cur = some 0
        ∧ Settled other ∧ Ready [rc 12] [] 0 other ∧ LockReach other a 0 ∧ other.myCore.lockedBy other.cur = none ∧ other.myCore.lockOf 0 ≠ none)
    ∧ (CsrAllowed sk 0x022 true ∧ Ready [rx 2] [] 0 sk ∧ Memory.wf sk.mem ∧ swf false sk.tags = true ∧ swf 0 sk.fe = true
      ∧ swf Core.reset sk.cores = true ∧ sk.myCore.nb = 1 ∧ addressed sk 0 (changesRole 1 0) = false)
    ∧ sk.lockFree := by
  exact ⟨by decide +kernel, by decide +kernel, lockFree_of_nil rfl⟩

/-- The operand of SPAWN in x5: context 15, x1 to x3 and c1 and v0 copied, x9 awaited. -/
def spawnWord : Word := BitVec.ofNat 64 (15 + 1 * 2 ^ 5 + 3 * 2 ^ 10 + 1 * 2 ^ 15 + 1 * 2 ^ 20 + 7 * 2 ^ 35 + 1 * 2 ^ 38 + 9 * 2 ^ 40 + 9 * 2 ^ 45)

theorem hyp_Children :
    (let t := on sk fun t => t.setX 5 spawnWord;
      let d := t.me.readX 5
      let e := t.me.readC 13
      let k := 16 * coreOf t.cur + operand d 0 4
      Settled t ∧ t.cur % 16 = 0 ∧ spawnOk d = true ∧ e.tag = true ∧ e.otype = 0 ∧ staleRecord t t.myPart e = none ∧ e.perms.getLsbD 5 = true
        ∧ codeShape e = true ∧ Ready (rc 13 :: rx 5 :: spawnCopies d) [rx 6] 0 t ∧ rc 13 ∉ spawnCopies d ∧ k = 15 ∧ (t.strand k).status = .free
        ∧ t.myCore.admitMask.getLsbD 15 = false ∧ spawnAwaits d = [rx 9]
        ∧ ((t.setMyCore { t.myCore with admitMask := 0x8000 }).myCore.admitMask.getLsbD 15 = true)
        ∧ (t.setStrand 15 { Strand.reset with status := .running }).strand 15 ≠ Strand.reset)
    ∧ (let child (c : CtxState) : State := (on sk fun t => t.setX 5 15).setStrand 15 { Strand.reset with status := c, child := true }
      Settled (child .ended) ∧ (child .ended).cur % 16 = 0 ∧ Ready [rx 5] [rx 6] 0 (child .ended) ∧ ((child .ended).me.readX 5).toNat = 15
        ∧ ((child .ended).strand 15).child = true ∧ ((child .ended).strand 15).status = .ended ∧ Settled (child .parked)
        ∧ ((child .parked).strand 15).status ≠ .ended ∧ ((child .parked).strand 15).status ≠ .free) := by decide +kernel

theorem hyp_SleepAndHold :
    (Settled sk ∧ Ready [] [] 0 sk ∧ Ready [rx 2] [rx 6] 0 sk
      ∧ (let t := (on sk fun t => t.setX 5 127).setStrand 127 { Strand.reset with status := .asleep }
        (t.me.readX 5).toNat < 2 ^ 12 ∧ 127 ≠ t.cur ∧ (t.pidOf t.cur).isSome = true ∧ t.pidOf 127 = t.pidOf t.cur ∧ (t.strand 127).status = .asleep)
      ∧ (let t := (on sk fun t => t.setX 5 127).setStrand 127 { Strand.reset with status := .running }
        t.pidOf 127 = t.pidOf t.cur ∧ (t.strand 127).status = .running)
      ∧ (let t := on sk fun t => t.setX 5 4095;
        ¬(((t.pidOf t.cur).isSome ∧ t.pidOf 4095 = t.pidOf t.cur) ∧ (t.strand 4095).status ≠ .free))
      ∧ (let t := on sk fun t => t.setX 5 0x1FFF;
        2 ^ 12 ≤ (t.me.readX 5).toNat ∧ (t.me.readX 5).toNat < 2 ^ 13))
    ∧ (let t := (on sk fun t => t.setX 5 0xFFFE).setStrand 15 { Strand.reset with status := .running }
      Settled t ∧ t.cur % 16 = 0 ∧ Ready [rx 5] [rx 6] 0 t ∧ (t.me.readX 5).toNat < 2 ^ 17 ∧ (t.me.readX 5).getLsbD 0 = false
        ∧ (∀ k < 16, (t.me.readX 5).getLsbD k = true → (t.strand (16 * coreOf t.cur + k)).status ≠ .inMma) ∧ (t.strand 15).holdable = true) := by
  decide +kernel

theorem hyp_StrandEnds :
    (let t := on sk fun t => { t with child := true };
      Settled t ∧ swf Core.reset t.cores = true ∧ swf none t.myCore.locks = true ∧ Ready [rx 10] [] 0 t ∧ t.me.frames = [] ∧ t.me.wait = .none
        ∧ opsPending t t.cur = false)
    ∧ (Settled sk ∧ Ready [rx 10] [] 0 sk ∧ sk.me.frames = [] ∧ sk.me.wait = .none ∧ sk.me.child = false ∧ tendReady sk sk.cur = true)
    ∧ (let t := sk.setStrand 15 { Strand.reset with status := .running, child := true }
      Settled t ∧ Ready [rx 10] [] 0 t ∧ t.me.child = false ∧ tendReady t t.cur = false) := by decide +kernel

theorem hyp_TendTrap : Ready [rx 10] [] 0 st ∧ st.me.frames ≠ [] := by decide +kernel

/-- The addresses of a tile. -/
def tile (s : State) (c : Cap) (use : Use) (sealed_ : Bool) (e0 e1 : Nat) : List Nat :=
  ((List.range e1).flatMap fun j => (List.range e0).map fun i => tileAt s c use sealed_ i j).filterMap id

/-- Tiles of BF16 in bank 0 and FP32 in bank 1 (c20, c22), nibbles in sealed bank 2 with their scales in sealed bank 3 (c24, c25), a BF16 tile in
sealed bank 3 (c26), a barrier object in bank 4 behind an FP32 tile (c22, c23); x5 is 128 and x6 is 127. -/
def sx : State :=
  let s := on sk fun t =>
    let t := (t.setC 20 (tcap 0x11 0x40000000 [(1, 1), (128, 1)])).setC 22 (tcap 0x12 0x40010000 [(2, 1), (3, 2)])
    let t := ((t.setC 23 (tcap 7 0x40040000 [(2, 1)])).setC 24 (tcap 0x18 0x40020000 [(2, 1), (2, 2)])).setC 25 (tcap 0x11 0x40030000 [(1, 1), (2, 1)])
    ((t.setC 26 (tcap 0x11 0x40030000 [(2, 1), (2, 2)])).setX 5 128).setX 6 127
  s.setMyCore { s.myCore with bfmt := [(0, 0x11), (1, 0x12), (2, 0x58), (3, 0x51)] }

theorem hyp_MatrixIssue :
    sx.myCore.mq.length < 16 ∧ swf Core.reset sx.cores = true
    ∧ (let c := sx.me.readC 26
      Ready [rc 26] [] 0 sx ∧ ¬c.fmt = 0x18 ∧ Allowed sx c 0x0301 (mwShape c true)
        ∧ TileReach sx c useRead true (c.extent 0) (ext1 c 1) (tile sx c useRead true 2 2))
    ∧ (let t := on sx fun t => t.setC 20 (tcap 0x11 0x40000000 [(32, 1), (1, 32)]);
      let c := t.me.readC 20
      Ready [rc 20] [] 0 t ∧ Allowed t c 0x0301 (mwShape c false)
        ∧ TileReach t c useRead false (c.extent 0) (ext1 c 1) (tile t c useRead false 32 1))
    ∧ (let c := sx.me.readC 24
      let d := sx.me.readC 25
      c.fmt = 0x18 ∧ Ready [rc 24, rc 25] [] 0 sx ∧ Allowed sx c 0x0301 (mwShape c true)
        ∧ TileReach sx c useRead true (c.extent 0) (ext1 c 1) (tile sx c useRead true 2 2) ∧ Allowed sx d 0x0301 (scaleShape d c)
        ∧ TileReach sx d useRead true 1 (ext1 c 1) (tile sx d useRead true 1 2))
    ∧ (let c := sx.me.readC 20
      let n := (sx.me.readX 5).toNat
      Ready [rc 20, rx 5] [] 0 sx ∧ n = 128 ∧ Allowed sx c 0x0101 (mmaShape c false) ∧ n ≤ ext1 c 1
        ∧ TileReach sx c useRead false (c.extent 0) n (tile sx c useRead false 1 128))
    ∧ (let c := sx.me.readC 22
      let d := sx.me.readC 23
      Ready [rc 22, rc 23] [] 0 sx ∧ Allowed sx c 0x0102 (mstoreShape c) ∧ TileReach sx c useWrite false (c.extent 0) (ext1 c 1) (tile sx c useWrite false 2 3)
        ∧ d.tag = true ∧ Allowed sx d 0x0183 (decide (d.sparse = 0) && (decide (d.fmt = 0x07) || decide (d.fmt = 0x08)) && decide (2 ≤ d.extent 0))
        ∧ barrierAt sx d = some 0x3F0000040000)
    ∧ ((sx.me.readX 6).toNat < 128 ∧ Ready [rx 6] [rv 5] 0 sx ∧ Ready [rx 6, rv 5] [] 0 sx)
    ∧ Ready [] [rx 5] 0 sx := by decide +kernel

/-- A copy of 8 numbers from GDDR7 to the scratchpad (c1, c2), of nibbles with scales to FP32 (c5, c6, c7), a barrier object (c3). -/
def sc : State := on s0 fun t =>
  let t := ((t.setC 1 (tcap 5 0x4000 [(8, 1)])).setC 2 (tcap 5 0x40000000 [(8, 1)])).setC 3 (tcap 7 0x40040000 [(2, 1)])
  let t := ((t.setC 5 (tcap 0x18 0x5000 [(32, 1)])).setC 6 (tcap 0x11 0x6000 [(1, 1)])).setC 7 (tcap 0x12 0x40010000 [(32, 1)])
  ((t.setC 8 (tcap 5 0x4000 [(8, 1)])).setC 9 (tcap 8 0x4100 [(1, 1)])).setV 2 0

/-- What a copy of c[cb] to c[ca] needs. -/
def copyReady (ca cb : Reg) (p : Pairing) (scaled : Bool) : Bool :=
  let src := sc.me.readC cb
  let dst := sc.me.readC ca
  decide (Ready [rc ca, rc cb, rv 2] [] 0 sc) && decide ((sc.copyQueue 0 3).ops.length < 32)
    && decide (Allowed sc src 0x0101 (anyShape src && (!scaled || scaledSource src))) && decide (Allowed sc dst 0x0102 (anyShape dst))
    && decide (pairing scaled src dst = some p) && pairShape p src dst 0 && !intoSealed sc [] dst && decide (elemCount dst < 2 ^ 40)
    && decide (bytesOf dst (elemCount dst) < 2 ^ 40)

theorem hyp_CopyIssue :
    copyReady 2 1 .raw false = true ∧ copyReady 7 5 .scaled true = true
    ∧ elemOf (sc.me.readV 2) 4 11 % 8 < 6
    ∧ (∃ a k w x, copyOf (.cpyb { ca := 2, cb := 2, xc := 2, q := 3, h := 0, sc := 0 }) = some (a, k, false, some (w, x))
      ∧ Allowed sc (sc.me.readC 3) w (x (sc.me.readC 3)) ∧ k (sc.me.readV 2) = .cpyb ∧ Ready [rc 3] [] 0 sc
      ∧ auxAt sc .cpyb (sc.me.readC 3) = some 0x3F0000040000)
    ∧ (∃ a k w x, copyOf (.cpyw { ca := 2, cb := 8, xc := 2, q := 3, h := 0, sc := 0 }) = some (a, k, false, some (w, x))
      ∧ Allowed sc (sc.me.readC 9) w (x (sc.me.readC 9)) ∧ k (sc.me.readV 2) = .cpyw 0 ∧ auxAt sc (.cpyw 0) (sc.me.readC 9) = some 0)
    ∧ (∃ a k w x, copyOf (.cpys { ca := 7, cb := 5, xc := 2, q := 3, h := 0, sc := 0 }) = some (a, k, true, some (w, x))
      ∧ Allowed sc (sc.me.readC 6) w (x (sc.me.readC 6)) ∧ k (sc.me.readV 2) = .cpys ∧ auxAt sc .cpys (sc.me.readC 6) = some 0)
    ∧ (∃ a k, copyOf (.cpym { ca := 2, cb := 1, xc := 2, q := 3, h := 0, sc := 0 }) = some (a, k, false, none) ∧ k (sc.me.readV 2) = .cpym 0
      ∧ k (BitVec.ofNat 1024 (0x81 * 2 ^ 320)) = .cpym 0x81)
    ∧ (∀ k < 8, sc.offline (8 * clusterOf sc.cur + k) = false) := by
  refine ⟨by decide +kernel, by decide +kernel, by decide +kernel, ⟨_, _, _, _, rfl, ?_⟩, ⟨_, _, _, _, rfl, ?_⟩, ⟨_, _, _, _, rfl, ?_⟩,
    ⟨_, _, rfl, ?_⟩, by decide +kernel⟩
  · decide +kernel
  · decide +kernel
  · decide +kernel
  · decide +kernel

/-- A CPYB at the head of queue 3 of core 0, started. -/
def copyHead : CopyOp := { copyStub .cpyb with seq := 1, dst := sc.me.readC 2, dstReg := 2, src := sc.me.readC 1, srcReg := 1, auxPa := 0x3F0000040000, started := true }
/-- The state with a queue of that operation and one more. -/
def sq (halted : Bool) : State := sc.setQueue 0 3 { CopyQueue.reset with ops := [copyHead, { copyHead with seq := 2 }], issued := 2, halted := halted }

theorem hyp_QueueControl :
    (Ready [rc 1, rv 2] [] 0 sc ∧ (sc.copyQueue 0 3).ops.length < 32 ∧ Allowed sc (sc.me.readC 1) 0x0101 (anyShape (sc.me.readC 1)))
    ∧ (let d := sc.me.readC 2
      Ready [rc 2, rx 2] [] 0 sc ∧ Allowed sc d 0x0102 (anyShape d && decide (d.sparse = 0) && decide (d.fmt ≠ 0x20)) ∧ elemCount d < 2 ^ 40
        ∧ bytesOf d (elemCount d) < 2 ^ 40)
    ∧ (Ready [] [] 0 (sq false) ∧ ((sq false).copyQueue 0 3).halted = false)
    ∧ (Ready [] [] 0 (sq true) ∧ ((sq true).copyQueue 0 3).halted = true ∧ ((sq true).copyQueue 0 3).ops ≠ [] ∧ Settled (sq true)
      ∧ copyHead.seq = ((sq true).copyQueue 0 3).done + 1 ∧ ((sq true).copyQueue 0 3).late = [])
    ∧ (sc.me.wait = .none ∧ ∀ q < 5, sc.myCore.issuedOf q ≤ sc.myCore.doneOf q)
    ∧ Ready [rx 5] [rx 5] 0 (sq true) := by decide +kernel

theorem hyp_LinksAndSkeins :
    (let t := on sk fun t => t.setX 5 511;
      Ready [rc 1, rx 5] [] 0 t ∧ (t.me.readX 5).toNat < 2 ^ 9 ∧ 16 ≤ (t.me.readX 5).toNat ∧ (t.link 0 0).length < 4
        ∧ (let e : LinkEntry := { ctx := 1, num := 1, val := .x 0, ready := 0, go := false }
          (t.setLink 0 1 [e, e, e, e]).link 0 1 = [e, e, e, e]))
    ∧ (let t := on sk fun t => t.setX 5 63;
      Ready [rx 5] [rx 6] 0 t ∧ (t.me.readX 5).toNat < 64 ∧ (t.skein 0 63).members = [])
    ∧ (let m (arr aph : Bool) : Member := { id := 0, arr := arr, aph := aph }
      let t (k : Member) : State := (on sk fun t => t.setX 5 63).setSkein 0 63 { members := [{ id := 17, arr := true, aph := false }, k], phase := false, count := 0 }
      ((t (m false false)).skein 0 63).members.find? (fun e => decide (e.id = sk.cur % 128)) = some (m false false)
        ∧ ((t (m true false)).skein 0 63).members.find? (fun e => decide (e.id = sk.cur % 128)) = some (m true false)
        ∧ ((t (m true true)).skein 0 63).members.find? (fun e => decide (e.id = sk.cur % 128)) = some (m true true)) := by decide +kernel

/-- A method of no conversion in the method cache of cluster 0, for operation 1 on byte runs c1 and c2 of GDDR7; c31 is null, x5 is 2 by 3 by 4, x6
two operands. -/
def lm : Method :=
  { key := 1, entry := (codeCap 0x2000).withOtype 9, conv := false, cidx := 0, ckind := 0, cop := 0, scnt := 16, re := true, rlo := 14, rhi := 15,
    outm := 2, outk := [0, 0, 0, 0], line := none }
/-- The state with that method under its key, the launching strand's operands in place. -/
def sl : State :=
  let s := on sk fun t => ((t.setC 2 (tcap 0 0x4040 [(64, 1)])).setX 5 (2 + 3 * 2 ^ 16 + 4 * 2 ^ 32 + 1 * 2 ^ 48)).setX 6 2
  let key := keyOf (kindsOf [s.me.readC 1, s.me.readC 2] 2) 1
  s.setCluster 0 { s.cluster 0 with mcache := [{ lm with key := BitVec.ofNat 64 key }] }

theorem lookup_hit {cl pid key s cache m} (h : cache.find? (fun m : Method => decide (m.key.toNat = key)) = some m) :
    lookup cl pid key s cache = (s, m :: cache.erase m, some m) := by simp [lookup, h]

theorem hyp_Launches :
    (let dims := (sl.me.readX 5).toNat
      let ops := (List.range 8).map fun j => if j < 2 then sl.me.readC (j + 1) else Cap.null
      let key := keyOf (kindsOf ops 2) (dims / 2 ^ 48)
      let m := { lm with key := BitVec.ofNat 64 key }
      Ready ([rx 5, rx 6] ++ launchRegs 2 ++ m.regs) [rx 7] 0 sl ∧ sl.myPart.sweepActive = false ∧ (sl.me.readX 6).toNat = 2
        ∧ targets sl sl.myPid 0 0 = some [0] ∧ freeSlots sl 0 ≠ [] ∧ (∀ j < 4, sl.me.pendingAfter (rc (j + 1)) sl.cycle = false)
        ∧ Settled sl ∧ swf Cluster.reset sl.clusters = true ∧ rx 5 ∉ m.regs
        ∧ lookup 0 sl.myPid key sl (sl.cluster 0).mcache = (sl, m :: (sl.cluster 0).mcache.erase m, some m))
    ∧ (let l (done : Bool) : Launch := {
        gen := 0xFFFF, source := .task 0, detach := false, method := lm, ops := [], c31 := Cap.null, xs := [], d0 := 1, d1 := 1, d2 := 1
        queues := [], converts := [], doneN := 0, status := some (0, 7), complete := done }
      let t (done : Bool) : State :=
        let s := on sk fun t => t.setX 5 0xFFFF1F;
        s.setCluster 0 { s.cluster 0 with launches := [(31, some (l done))] }
      Ready [rx 5] [rx 6] 0 (t true) ∧ ((t true).me.readX 5).toNat / 2 ^ 5 % 8 = 0 ∧ ((t true).me.readX 5).toNat % 32 = 31
        ∧ (t true).launchAt 0 31 = some (l true) ∧ (t false).launchAt 0 31 = some (l false) ∧ sk.me.child = false) := by
  refine ⟨⟨by decide +kernel, by decide +kernel, by decide +kernel, by decide +kernel, by decide +kernel, by decide +kernel,
    by decide +kernel, by decide +kernel, by decide +kernel, lookup_hit (by decide +kernel)⟩, by decide +kernel⟩

/-- A pool of pages of 8 by 1 numbers. -/
def kvPool (base pages : Nat) : Cap := ({ tag := true, base := base, gen := 0, objid := 0, fmt := 0x11, sparse := 0, layout := 4, perms := 0x1FFF, reach := 3
                                          otype := 0, dims := [(1, 1), (8, 1), (pages, 8)] } : View).cap
/-- A page list of pages 0 and 255 (c14), pools of 256 pages of 8 by 1 (c15, c16), a KV region of bank 15's neighbour banks 2 to 5. -/
def sv : State :=
  let s := on sk fun t => ((t.setC 14 (tcap 6 0x5000 [(2, 1)])).setC 15 (kvPool 0x10000 256)).setC 16 (kvPool 0x20000 256)
  let s := s.setMyCore { s.myCore with bfmt := [(2, 0x91), (3, 0x91), (4, 0x91), (5, 0x91)] }
  { s with mem := memPut s.mem 0x5004 4 255 }
/-- The two elements of the list. -/
def listElems : List Elem := [elemAt sv 0x5000 useRead, elemAt (sv.touch (elemAt sv 0x5000 useRead) 4 false) 0x5004 useRead]
/-- Slots of cluster 0: slot 0 of strand 0 with a delivery, slot 63 drained, slot 1 of strand 5. -/
def sn (q0 : List Delivery) (st0 : SlotState) : State :=
  sk.setCluster 0 { sk.cluster 0 with kv := [(0, { KvSlot.reset with state := st0, owner := 0, queue := q0, refs := [3] }),
    (1, { KvSlot.reset with state := .active, owner := 5 }), (63, { KvSlot.reset with state := .drained, owner := 0 })] }

theorem hyp_Subscriptions :
    (let list := sv.me.readC 14
      let kp := sv.me.readC 15
      let vp := sv.me.readC 16
      swf Cluster.reset sv.clusters = true ∧ Ready [rc 14, rc 15, rc 16, rx 1] [rx 5] 0 sv ∧ sv.myPart.sweepActive = false ∧ list.extent 0 = 2 ∧ Allowed sv list 0x0001 (listShape list)
        ∧ Allowed sv kp 0x0101 (poolShape kp) ∧ Allowed sv vp 0x0101 (poolShape vp && samePages kp vp)
        ∧ 4 * bufBytes (kp.extent 0) (kp.extent 1) ≤ (kvRegion sv.myCore).2 * 2 ^ 16
        ∧ (∀ j < 2, (listElems[j]?).map (fun e => (sv.touching (listElems.take j) 4 false).load e.pa 4) = [0, 255][j]?)
        ∧ (∀ j < 2, InBounds list [Int.ofNat j] ∧ Reached (sv.touching (listElems.take j) 4 false) useRead 4 (some list.fmt) list.objid
            (elementAddr list [Int.ofNat j]) (listElems.getD j (elemAt sv 0 useRead)))
        ∧ (∀ v ∈ [0, 255], v < kp.extent 2) ∧ freeKv sv 0 = some 0)
    ∧ (let full : State := sv.setCluster 0 { sv.cluster 0 with kv := (List.range 64).map fun q => (q, { KvSlot.reset with state := .active, owner := 5 }) }
      freeKv full 0 = none)
    ∧ (let s := on (sn [] .active) fun t => t.setX 5 63;
      Ready [rx 5] [] 0 s ∧ swf Cluster.reset s.clusters = true ∧ swf KvSlot.reset (s.cluster 0).kv = true ∧ (s.me.readX 5).toNat = 63
        ∧ (s.kvSlot 0 63).state ≠ .free ∧ (s.kvSlot 0 63).owner = s.cur ∧ (s.cluster 0).kvWait = [] ∧ (s.kvSlot 0 1).owner ≠ s.cur
        ∧ 3 ∈ (s.kvSlot 0 0).refs ∧ 2 ∉ (s.kvSlot 0 0).refs ∧ (0x8000 : Nat).testBit 15 = true ∧ (0x300 : Nat).testBit 15 = false)
    ∧ (let d : Delivery := { page := 1, pos := 0, cause := 0, buf := 0, age := 0 }
      let s := sn [d] .active
      Ready [] [rx 5] 0 s ∧ ownKv s 0 s.cur = [0, 63] ∧ (s.kvSlot 0 0).queue = [d]
        ∧ (∀ p ∈ ownKv s 0 s.cur, ∀ d' ∈ (s.kvSlot 0 p).queue.head?, d.age < d'.age ∨ (d.age = d'.age ∧ 0 ≤ p)))
    ∧ ((∀ q ∈ ownKv (sn [] .drained) 0 0, ((sn [] .drained).kvSlot 0 q).queue = [] ∧ ((sn [] .drained).kvSlot 0 q).state = .drained)
      ∧ ∃ q ∈ ownKv (sn [] .active) 0 0, ((sn [] .active).kvSlot 0 q).state ≠ .drained) := by
  dsimp only [Reached]
  exact holds (fun _ => inferInstance) (by decide +kernel)

/-- Merge slot 127 of dimension 2 awaits partial `next` of 20; x5 names it with order number 3, a partial is in c14. -/
def sg (next : Nat) : State :=
  let s := on sk fun t => (((t.setC 14 (tcap 0x12 0x5000 [(2, 1)])).setX 5 (127 + 3 * 2 ^ 16)).setX 6 127).setX 8 (256 + 65535 * 2 ^ 16)
  s.setCluster 0 { s.cluster 0 with merge := [(127, { MergeSlot.reset with valid := true, dim := 2, nord := 20, next := next, o := [0, 0] })] }

/-- `RunReach` as it evaluates. -/
abbrev runReach (s : State) (c : Cap) (use : Use) (n : Nat) (es : List Elem) : Prop :=
  es.length = n ∧ ∀ j < n, InBounds c [Int.ofNat j] ∧ ∀ e ∈ es[j]?, Reached s use (esize c.fmt) (some c.fmt) c.objid (elementAddr c [Int.ofNat j]) e

theorem runReach_of {s c use n es} (h : runReach s c use n es) : RunReach s c use n es := h

theorem hyp_MergeBuffer :
    (Ready [rx 8] [rx 7] 0 (sg 0) ∧ 1 ≤ ((sg 0).me.readX 8).toNat % 2 ^ 16 ∧ ((sg 0).me.readX 8).toNat % 2 ^ 16 = 256
      ∧ ((sg 0).me.readX 8).toNat / 2 ^ 16 ≠ 0 ∧ ((sg 0).me.readX 8).toNat < 2 ^ 32 ∧ ((sg 0).mergeSlot 0 0).valid = false
      ∧ mergeUsed ((sg 0).cluster 0) + mergeBytes 256 ≤ 2 ^ 18)
    ∧ (let c := (sg 0).me.readC 14
      let es := [elemAt sk 0x5000 useRead, elemAt sk 0x5004 useRead]
      let k := (sg 0).mergeSlot 0 127
      swf Cluster.reset (sg 0).clusters = true ∧ swf Cluster.reset (sg 3).clusters = true ∧ Ready [rc 14, rx 5, rx 7] [] 0 (sg 0) ∧ k.valid = true ∧ 3 < k.nord ∧ k.next ≤ 3 ∧ 3 < k.next + 16 ∧ sget none k.win 3 = none
        ∧ k.senders.length ≠ 8 ∧ Allowed (sg 0) c 0x0001 (partialShape c) ∧ runReach (sg 0) c useRead k.dim es ∧ k.next < 3
        ∧ ((sg 3).mergeSlot 0 127).next = 3 ∧ runReach (sg 3) ((sg 3).me.readC 14) useRead k.dim es ∧ swf none k.win = true
        ∧ (∀ r ∈ ((sg 3).cluster 0).mgWait, r.slot ≠ 127))
    ∧ (let u := (on (sg 0) fun t => t.setX 5 (127 + 19 * 2 ^ 16))
      (u.mergeSlot 0 127).next + 16 ≤ 19 ∧ 19 < (u.mergeSlot 0 127).nord)
    ∧ (let c := (sg 20).me.readC 14
      let es := [elemAt sk 0x5000 useWrite, elemAt sk 0x5004 useWrite]
      let k := (sg 20).mergeSlot 0 127
      swf Cluster.reset (sg 20).clusters = true ∧ Ready [rc 14, rx 6] [rx 7] 0 (sg 20) ∧ ((sg 20).me.readX 6).toNat = 127 ∧ k.valid = true ∧ Allowed (sg 20) c 0x0002 (quotientShape c)
        ∧ runReach (sg 20) c useWrite k.dim es ∧ k.next = k.nord ∧ (∀ e ∈ es, (sg 20).isPeer e.pa = false) ∧ k.o.length = k.dim
        ∧ ((sg 0).mergeSlot 0 127).next ≠ ((sg 0).mergeSlot 0 127).nord)
    ∧ (Ready [rx 6] [] 0 (sg 0) ∧ swf Cluster.reset (sg 0).clusters = true ∧ ((sg 0).mergeSlot 0 126).valid = false
      ∧ (∀ r ∈ ((sg 0).cluster 0).mgWait, r.slot ≠ 127))
    ∧ (∃ k p : BitVec 32, ¬(k = 0xFF800000 ∧ k &&& 0x7FFFFFFF = 0) ∧ ¬(p = 0xFF800000 ∧ p &&& 0x7FFFFFFF = 0)) := by
  dsimp only [runReach, Reached]
  refine ⟨by decide +kernel, holds (fun _ => inferInstance) (by decide +kernel), by decide +kernel,
    holds (fun _ => inferInstance) (by decide +kernel), by decide +kernel, 0, 0, by decide, by decide⟩

theorem hyp_CacheControl :
    (let s := on sk fun t => t.setX 5 0x107;
      let d := s.die (dieOf s.cur)
      Ready [rc 1, rx 5] [rx 6] 0 s ∧ (s.pidOf s.cur).isSome = true ∧ (s.me.readX 5).toNat / 2 ^ 3 % 32 = 0 ∧ (s.me.readX 5).toNat / 2 ^ 8 = 1
        ∧ Allowed s (s.me.readC 1) 0x0101 true ∧ (sget Retention.reset d.ret (8 * s.myPid + 7)).valid = false
        ∧ ¬(wayCount s.myPart.wmask < d.reserved (some s.myPid) + 1 + 1 ∨ 8 < d.reserved none + 1) ∧ wayCount 1 < d.reserved (some s.myPid) + 1 + 1)
    ∧ (let s := on sk fun t => t.setX 5 7;
      let t := s.setDie 0 { s.die 0 with ret := [(7, { Retention.reset with valid := true, res := 8 })] }
      Ready [rx 5] [rx 6] 0 s ∧ (s.me.readX 5).toNat < 8 ∧ (sget Retention.reset (s.die 0).ret 7).valid = false
        ∧ (sget Retention.reset (t.die 0).ret 7).valid = true)
    ∧ (Ready [rc 1, rx 2] [] 0 sk ∧ (sk.me.readX 2).toNat ≤ 1 ∧ Allowed sk (sk.me.readC 1) 0x0003 true)
    ∧ (lineRange (sk.me.readC 1) = (0x4000, 0x4080) ∧ sk.place (elemAt sk 0 useRead).pa = .gddr 0
      ∧ translate sk (sk.pidOf sk.cur) 0 useRead = .ok ((elemAt sk 0 useRead).leaf, (elemAt sk 0 useRead).pa)) := by
  exact holds (fun _ => inferInstance) (by decide +kernel)

/-- An object table of 16 entries: object 0 alive with INTEG, ENC and ZFREE, object 15 free at generation 5; one version counter, at `v`. -/
def so (v : BitVec 48) : State :=
  let s := on sk fun t => t.setX 5 15;
  let s := s.setPart 0 { s.part 0 with otbase := 4 * 2 ^ 59, desc := { (s.part 0).desc with vcount := 1 } }
  { s with mem := memPut (memPut s.mem 0x10 8 (7 * 2 ^ 10)) 0x1F0 8 (2 * 2 ^ 8 + 5), versions := if v = 0 then [] else [(0, v)] }

theorem hyp_Lifetimes :
    (let s := so 0
      let p := s.myPart
      let c := s.me.readC 1
      s.me.sys = true ∧ Ready [rc 1, rx 5] [rc 6] 0 s ∧ (s.me.readX 5).toNat = 15 ∧ c.otype = 0 ∧ c.codesOk = true ∧ shaped c.view = true
        ∧ c.zeroAbove = true ∧ 2 ≤ c.reach ∧ span c = some (Int.ofNat 0x4000, Int.ofNat 0x4040) ∧ 15 < objCount p ∧ objState s p 15 = 2)
    ∧ (let s := so 0
      let p := s.myPart
      let c := s.me.readC 1
      Ready [rc 1] [] 0 s ∧ c.tag = true ∧ c.otype = 0 ∧ staleRecord s p c = none ∧ inFlight s s.myPid c.objid = false ∧ p.paired = none
        ∧ (objInteg s p c.objid = true ∨ objEnc s p c.objid = true) ∧ versionSlot s p c.objid = some 0 ∧ s.version 0 ≠ BitVec.allOnes 48
        ∧ (so (BitVec.allOnes 48)).version 0 = BitVec.allOnes 48 ∧ Ready [] [rx 5] 0 s ∧ s.pidOf s.cur = some 0)
    ∧ (let s := sq false
      s.me.sys = true ∧ Ready [rc 1] [] 0 s ∧ (s.me.readC 1).tag = true ∧ (s.me.readC 1).otype = 0
        ∧ staleRecord s s.myPart (s.me.readC 1) = none ∧ inFlight s s.myPid (s.me.readC 1).objid = true) := by decide +kernel

/-- Partition 0 paired; `w` in x5; an operation at the head of its link queue, which is halted or not. -/
def sp (w : Word) (q : LinkQueue) : State :=
  let s := on sc fun t => t.setX 5 w;
  (s.setPart 0 { s.part 0 with paired := some 3 }).setLq 0 0 q
/-- An LNRED of tag 7 of 8 elements. -/
def redOp : LinkOp := {
  seq := 1, red := true, val := 7, aux := 0, strand := 0, dst := sc.me.readC 2, dstReg := 2, src := sc.me.readC 1, srcReg := 1, auxCap := Cap.null
  auxReg := 0, auxPa := 0, started := true, prefixN := 0, sub := 0, flags := 0, sent := false, own := []
  before := [], met := false, stop := none }

theorem hyp_LinkIssue :
    (let s := sp (7 * 2 ^ 32) LinkQueue.reset
      let src := s.me.readC 1
      let dst := s.me.readC 2
      (s.pidOf s.cur).isSome = true ∧ s.myPart.paired.isSome = true ∧ s.myPart.sweepActive = false ∧ Ready [rc 1, rc 2, rx 5] [] 0 s
        ∧ Allowed s src 0x0101 (anyShape src) ∧ Allowed s dst 0x0102 (anyShape dst && lncpyPair src dst)
        ∧ Allowed s dst 0x0102 (anyShape dst && lnredPair src dst) ∧ elemCount dst < 2 ^ 40 ∧ bytesOf dst (elemCount dst) < 2 ^ 40
        ∧ (s.lq 0 s.myPid).ops.length < 32 ∧ (7 : BitVec 32) ∉ s.myPart.liveTags ∧ s.myPart.liveTags.length < 16)
    ∧ (let s := sp 1 LinkQueue.reset
      let x := s.me.readC 9
      Ready [rc 8, rc 2, rx 5, rc 9] [] 0 s ∧ (s.me.readX 5).toNat % 4 = 1 ∧ Allowed s x 0x0102 (wordShape x) ∧ auxAt s (.cpyw 0) x = some 0
        ∧ Allowed s (s.me.readC 2) 0x0102 (anyShape (s.me.readC 2) && lncpyPair (s.me.readC 8) (s.me.readC 2)))
    ∧ (let s := sp 2 LinkQueue.reset
      let x := s.me.readC 3
      Ready [rc 2, rc 8, rx 5, rc 3] [] 0 s ∧ (s.me.readX 5).toNat % 4 = 2 ∧ Allowed s x 0x0183 (wordShape x && decide (2 ≤ x.extent 0))
        ∧ auxAt s .cpyb x = some 0x3F0000040000 ∧ Allowed s (s.me.readC 8) 0x0102 (anyShape (s.me.readC 8) && lnredPair (s.me.readC 2) (s.me.readC 8)))
    ∧ 32 ≤ ((sp 0 { LinkQueue.reset with ops := List.replicate 32 redOp, issued := 32 }).lq 0 0).ops.length
    ∧ (let q : LinkQueue := { LinkQueue.reset with ops := [redOp], issued := 1, halted := true }
      let r : LinkQueue := { q with ops := [{ redOp with red := false }] }
      let s := sp 0x1F q
      Ready [] [] 0 s ∧ s.me.wait = .none ∧ (s.lq 0 0).done < (s.lq 0 0).issued ∧ Ready [rx 5] [rx 6] 0 s ∧ (s.me.readX 5).toNat / 16 = 1
        ∧ (s.lq 0 0).halted = true ∧ (s.lq 0 0).ops = [redOp] ∧ ((sp 0x29 r).me.readX 5).toNat / 16 = 2
        ∧ ((sp 0x29 r).lq 0 0).ops = [{ redOp with red := false }] ∧ ((sp 9 LinkQueue.reset).me.readX 5).toNat < 16
        ∧ ((sp 9 LinkQueue.reset).lq 0 0).issued ≤ ((sp 9 LinkQueue.reset).lq 0 0).done) := by decide +kernel

/-- A descriptor of partition 15 with cluster 31 and the last region of die 1. -/
def desc15 : Descriptor := { Descriptor.zero with partid := 15, clusters := 0x80000000, regions := [128 + 95], encRegions := [128 + 95] }

theorem hyp_ManagerEvents :
    (let s := ({ State.reset with firmware := true } : State);
      State.reset.firmware = false ∧ swf Partition.reset s.parts = true ∧ s.firmware = true ∧ (s.part 15).present = false ∧ descOk s desc15 = true
        ∧ (desc15.clusters.getLsbD 31 = true))
    ∧ (let s := State.reset.setPart 15 { Partition.reset with present := true, desc := desc15 }
      swf Partition.reset s.parts = true ∧ (s.part 15).present = true ∧ swf Die.reset s.dies = true ∧ descOk s desc15 = true
        ∧ s.pidOfCluster 31 = some 15)
    ∧ (∀ n, swf none ((State.reset.setPart 15 { Partition.reset with present := true, desc := desc15 }).die n).regions = true)
    ∧ ∃ epoch : Word, epoch ≠ State.reset.epoch := by
  refine ⟨by decide +kernel, by decide +kernel, fun _ => rfl, ~~~State.reset.epoch, ?_⟩
  intro h
  have := congrArg (fun x : Word => x.getLsbD 0) h
  simp at this

/-- Partition 0 in a run state, with what a swap has saved. -/
def sw (r : RunState) (v : Option Saved) : State := s0.setPart 0 { s0.part 0 with run := r, saved := v }

theorem hyp_SwapEvents :
    (swf Partition.reset s0.parts = true ∧ (s0.part 0).present = true ∧ (s0.part 0).run = .running ∧ (s0.part 0).paired = none)
    ∧ (let s := sw .descheduled (some (s0.image 0))
      swf Partition.reset s.parts = true ∧ (s.part 0).run = .descheduled ∧ (s.part 0).present = true
        ∧ (∀ c < 32, (s.part 0).desc.clusters.getLsbD c = true → s.pidOfCluster c = none) ∧ swf Strand.reset (s0.image 0).strands = true
        ∧ swf Cluster.reset s.clusters = true ∧ (s.part 0).saved.isSome = true)
    ∧ ((sw .gated none).part 0).run = .gated
    ∧ (let s := s0.setPart 0 { s0.part 0 with paired := some 0 }
      (s.part 0).present = true ∧ (s.part 0).paired.isSome = true)
    ∧ (let s := sw .halted (some (s0.image 0))
      (s.part 0).run = .halted ∧ (s.part 0).onDies = true ∧ (s.part 0).paired = none ∧ (s.part 0).saved.isSome = true)
    ∧ (let s := s0.setPart 1 { Partition.reset with run := .halted, saved := some (s0.image 0) }
      (s.part 0).onDies = true ∧ (s.part 0).paired = none ∧ (s.part 1).run = .halted ∧ (s.part 1).saved.isSome = true
        ∧ swf Partition.reset s.parts = true)
    ∧ (let s := on s0 fun t => { t with status := .stopped };
      s.pidOf 0 = some 0 ∧ (s.part 0).run = .running ∧ (s.strand 0).status = .stopped) := by decide +kernel

theorem hyp_HostEvents :
    (s0.homeOf 0x4000 = some 0 ∧ 0x4000 % 2 ^ 3 = 0 ∧ (s0.part 0).present = true ∧ (s0.regionsOf 0)[0x4000 / 2 ^ 30]? = some 0
      ∧ 0x4000 = s0.regionBase 0 + 0x4000 % 2 ^ 30 ∧ (s0.regionsOf 0)[(2 ^ 30) / 2 ^ 30]? = none)
    ∧ (let s := { s0 with hostLink := some (16, 6, true), hdmpart := 0x10 }
      s.hdmNext = none ∧ hdmAddress s 0x3DFFFFF8 = some 0x3DFFFFF8 ∧ s.homeOf 0x3DFFFFF8 = some 0 ∧ hdmAddress s 0x40000000 = none)
    ∧ ({ s0 with hdmNext := some 0x1F } : State).hdmNext = some 0x1F
    ∧ (let p := s0.part 0
      p.present = true ∧ p.mbctl.getLsbD 0 = false ∧ swf 0 p.ev = true ∧ p.desc.clusters.getLsbD 0 = true
        ∧ ((0x1000 : BitVec 16) - 0).toNat ≤ 2 ^ 12 ∧ 2 ^ 0 < ((2 : BitVec 16) - 0).toNat)
    ∧ (let p := ({ s0 with seam := .up }.setPart 0 { s0.part 0 with mbctl := 0x101, mbtail := 1, mbhead := 0xFFFF, pairctl := 0x10 }).part 0
      p.mbctl.getLsbD 0 = true ∧ p.mbtail ≠ p.mbhead ∧ p.pairctl.getLsbD 4 = true ∧ p.paired = none) := by decide +kernel

theorem hyp_SeamEvents :
    State.reset.seam = .untrained
    ∧ (let s := { s0 with seam := .up, replays := 8 }.setPart 0 { s0.part 0 with paired := some 0 }
      s.seam = .up ∧ s.replays = 8 ∧ s.homeOf 0x4000 = some 0 ∧ (s.part 0).present = true ∧ (s.part 0).paired.isSome = true
        ∧ (s.part 0).onDies = true ∧ s.pidOf 0 = some 0 ∧ (s.strand 0).status = .running
        ∧ ((on s fun t => { t with status := .asleep }).strand 0).status = .asleep)
    ∧ (let s := { s0 with seam := .retraining }
      s.seam = .retraining ∧ swf Partition.reset s.parts = true)
    ∧ (s0.readInteg 0 0x4000 5 (byteMask 0x4000 64) = none ∧ 0x4000 % 2 ^ 6 = 0)
    ∧ (let part (pa : Nat) : PartWrite := { at_ := { va := pa, pa := pa, page := 0, so := true }, size := 8, value := 7, objid := 0 }
      let s := { on s0 fun t => { t with soPeer := true, parts := [[part 0x4000]] } with unacked := [(0, 1)] }
      sget 0 s.unacked 0 - 1 = 0 ∧ (s.strand 0).soPeer = true ∧ sget 0 s.unacked (4096 + (s.pidOf 0).getD 0) = 0
        ∧ ((s.strand 0).parts ≠ []) ∧ sget 0 ({ s with unacked := [(0, 2)] } : State).unacked 0 - 1 ≠ 0) := by decide +kernel

/-- An LNCPY and an LNRED of 8 numbers at the head of a queue of partition 0; the LNCPY's destination may be unmapped. -/
def linkHead (red started : Bool) (n aux : Nat) (dst : Cap) : LinkOp := { redOp with red := red, started := started, prefixN := n, aux := aux, dst := dst }
def se (o : LinkOp) : State := sp 0 { LinkQueue.reset with ops := [o], issued := 1 }
def unmapped : Cap := tcap 5 0x80000000 [(8, 1)]

theorem hyp_LinkEngineEvents :
    (let o (red : Bool) := linkHead red false 0 0 (sc.me.readC 2);
      ((se (o true)).lq 0 0).halted = false ∧ ((se (o true)).lq 0 0).ops = [o true] ∧ (se (o true)).seamHolds (some 0) = false
        ∧ ((se (o true)).part 0).run = .running ∧ (o true).stop = none ∧ (o true).met = false ∧ elemCount (o true).dst = 8
        ∧ (o true).stale (se (o true)) ((se (o true)).part 0) = none ∧ (o false).stale (se (o false)) ((se (o false)).part 0) = none)
    ∧ (let o := linkHead false true 7 0 (sc.me.readC 2);
      (∃ e, linkElem (se o) o false 7 = .ok e ∧ True) ∧ (∃ e, linkElem (se o) o true 7 = .ok e ∧ True))
    ∧ (let o := linkHead false true 6 2 (sc.me.readC 2);
      (∃ e, linkElem (se o) o false 6 = .ok e ∧ True) ∧ (∃ e, linkElem (se o) o true 6 = .ok e ∧ True) ∧ sget 0 (se o).unacked o.strand = 0)
    ∧ (let o := linkHead false true 0 0 unmapped;
      (linkElem (se o) o false 0).toOption.isSome = true ∧ (linkElem (se o) o true 0).toOption = none)
    ∧ (let o := linkHead true true 0 0 (sc.me.readC 2);
      ∃ es, chunkElems (se o) o 0 o.chunk = .ok es ∧ es.length = 8)
    ∧ (let o := { linkHead true true 0 0 (sc.me.readC 2) with sent := true, own := List.replicate 8 1 }
      (5 : BitVec 6).toNat = o.src.fmt ∧ (List.replicate 8 (2 : BitVec 32)).length = o.chunk
        ∧ (∃ es, chunkElems (se o) o 0 o.chunk = .ok es ∧ es.length = 8) ∧ 0x12 ≠ o.src.fmt)
    ∧ (let o := linkHead true true 8 2 (sc.me.readC 2);
      elemCount o.dst ≤ o.prefixN ∧ sget 0 (se o).unacked o.strand = 0) := by
  refine ⟨by decide +kernel, ⟨exists_ok (by decide +kernel), exists_ok (by decide +kernel)⟩,
    ⟨exists_ok (by decide +kernel), exists_ok (by decide +kernel), by decide +kernel⟩, by decide +kernel, exists_ok (by decide +kernel),
    ⟨by decide +kernel, by decide +kernel, exists_ok (by decide +kernel), by decide +kernel⟩, by decide +kernel⟩

/-- A matrix operation of strand 0. -/
def matOp (seq : Nat) (kind : MatKind) (start : Option Nat) (row : Nat) : MatOp := {
  seq := seq, kind := kind, strand := 0, pc := 0, cap := sx.me.readC 22, capReg := 22, aux := none, pas := tile sx (sx.me.readC 22) useWrite false 2 3
  auxPas := [], snap := [], start := start, fin := 100, accepted := 50, row := row, flags := 0, bad := none, held := none }
/-- Core 0 with a queue. -/
def sm2 (ops : List MatOp) (done : Nat) : State := sx.setMyCore { sx.myCore with mq := ops, mqIssued := 9, mqDone := done }

theorem hyp_MatrixEvents :
    (∀ kind ∈ [MatKind.mwload true false, .mma true false true 15 128, .mzero 15, .mstore 15 3 true, .mrdrow 15 127 31, .mwrrow 15 127 0],
      let o := matOp 2 kind none 0
      let p := matOp 1 (.mma false false false 0 1) (some 60) 0
      let ahead := if kind.isMma then [] else [p]
      ((sm2 (ahead ++ [o]) 0).core 0).mq = ahead ++ [o] ∧ (∀ p ∈ ahead, ∀ t ∈ p.start, t < 100) ∧ (∀ p ∈ ahead, p.start ≠ none)
        ∧ o.accepted < (sm2 [o] 0).cycle ∧ mayStart o ahead 100 = true ∧ (∀ p ∈ ahead, p.seq ≠ o.seq)
        ∧ clusterRuns (sm2 [o] 0) (0 / 8) = true)
    ∧ (∀ kind ∈ [MatKind.mwload true true, .mzero 15, .mrdrow 15 127 31, .mwrrow 15 127 0],
      let o := matOp 9 kind (some 60) 0
      let p := matOp 8 (.mma false false false 0 1) none 0
      (∀ q ∈ [p], q.start = none ∨ (sm2 [p, o] 8).cycle < q.fin) ∧ o.fin ≤ (sm2 [p, o] 8).cycle ∧ o.row = o.rows ∧ o.bad = none
        ∧ o.seq = ((sm2 [p, o] 8).core 0).mqDone + 1 ∧ ((sm2 [p, o] 8).core 0).mqLate = [] ∧ swf 0 ((sm2 [p, o] 8).core 0).acc = true)
    ∧ ((matOp 9 (.mma true true true 15 128) (some 60) 128).row = (matOp 9 (.mma true true true 15 128) (some 60) 128).rows
      ∧ (matOp 9 (.mstore 15 3 true) (some 60) 3).row = (matOp 9 (.mstore 15 3 true) (some 60) 3).rows
      ∧ (matOp 9 (.mwload false false) (some 60) 32).row = (matOp 9 (.mwload false false) (some 60) 32).rows) := by decide +kernel

theorem hyp_MatrixRows :
    (let o := matOp 9 (.mstore 15 3 true) (some 60) 0;
      let s := sm2 [o] 8
      (s.core 0).mq ≠ [] ∧ swf 0 (s.core 0).acc = true ∧ swf Core.reset s.cores = true ∧ swf 0 (s.core 0).shadow = true
        ∧ (numFmt o.cap.fmt).isSome = true ∧ 0 < esize o.cap.fmt ∧ Memory.wf s.mem
        ∧ (∀ n < o.cap.extent 0, s.isPeer (o.pas.getD (2 * o.cap.extent 0 + n) 0) = false)
        ∧ (∀ i < o.cap.extent 0, ∀ j < o.cap.extent 0, i ≠ j →
          let pa (n : Nat) : Nat := o.pas.getD (2 * o.cap.extent 0 + n) 0
          pa i + esize o.cap.fmt ≤ pa j ∨ pa j + esize o.cap.fmt ≤ pa i)) := by decide +kernel

/-- A copy operation at the head of queue 3 of core 0. -/
def head3 (kind : CopyKind) (started : Bool) (n : Nat) (src dst : Cap) : CopyOp :=
  { copyHead with kind := kind, started := started, prefixN := n, src := src, dst := dst, aux := sc.me.readC 9, auxReg := 9 }
def sh (o : CopyOp) : State := sc.setQueue 0 3 { CopyQueue.reset with ops := [o], issued := 1 }

theorem hyp_CopyEvents :
    (let c2 := sc.me.readC 2
      let o := head3 .cpy false 0 (sc.me.readC 1) c2
      let dead := head3 .cpy false 0 { (sc.me.readC 1) with bits := ((sc.me.readC 1).setField 56 8 9).bits } c2
      clusterRuns (sh o) (0 / 8) = true ∧ ((sh o).copyQueue 0 3).halted = false ∧ ((sh o).copyQueue 0 3).ops = [o] ∧ o.stale (sh o) ((sh o).partOfCore 0) = none
        ∧ (dead.stale (sh dead) ((sh dead).partOfCore 0)).isSome = true)
    ∧ (let o := head3 (.cfill 3) true 7 Cap.null (sc.me.readC 2);
      let u := head3 (.cfill 3) true 7 Cap.null unmapped
      7 < elemCount o.dst ∧ o.dst.fmt ≠ 0x18 ∧ (engElem (sh o) 0 o.dst o.dstReg o.use (o.index 7)).toOption.isSome = true
        ∧ (engElem (sh u) 0 u.dst u.dstReg u.use (u.index 7)).toOption = none ∧ u.visible (sh u) = true)
    ∧ (let o := head3 .cpy true 7 (sc.me.readC 1) (sc.me.readC 2);
      o.blocks = false ∧ o.pairing = .raw ∧ ∃ a, engElem (sh o) 0 o.src o.srcReg useRead (o.source 7) = .ok a
        ∧ (engElem (o.element ((sh o).engTouch 0 a 4 false) a.pa 4).1 0 o.dst o.dstReg o.use (o.index 7)).toOption.isSome = true)
    ∧ (let o := head3 .cpy true 7 (sc.me.readC 1) (tcap 0x12 0x40000000 [(8, 1)]);
      o.pairing = .conv ∧ (numFmt o.src.fmt).isSome = true ∧ (numFmt o.dst.fmt).isSome = true
        ∧ ∃ a, engElem (sh o) 0 o.src o.srcReg useRead (o.source 7) = .ok a
          ∧ (engElem (o.element ((sh o).engTouch 0 a 4 false) a.pa 4).1 0 o.dst o.dstReg o.use (o.index 7)).toOption.isSome = true)
    ∧ (let o := head3 (.cpyw 5) true 8 (sc.me.readC 1) (sc.me.readC 2);
      elemCount o.dst ≤ 8 ∧ o.overlaps = false ∧ (sh o).seamHolds ((sh o).pidOf o.strand) = false ∧ swf Core.reset (sh o).cores = true ∧ o.seq = ((sh o).copyQueue 0 3).done + 1 ∧ ((sh o).copyQueue 0 3).late = []
        ∧ ∃ e, engElem (sh o) 0 o.aux o.auxReg useWrite [0] = .ok e ∧ (sh o).isPeer e.pa = false) := by
  refine ⟨by decide +kernel, by decide +kernel, ⟨by decide +kernel, by decide +kernel, exists_ok (by decide +kernel)⟩,
    ⟨by decide +kernel, by decide +kernel, by decide +kernel, exists_ok (by decide +kernel)⟩,
    ⟨by decide +kernel, by decide +kernel, by decide +kernel, by decide +kernel, by decide +kernel, by decide +kernel, exists_ok (by decide +kernel)⟩⟩

/-- A request of strand 0 at bank 0, and a lock of strand 0. -/
def feReq : BankReq := { strand := 0, kind := .lds, args := ra 5 9 2, pa := 0x3F0000000008, va := 0x40000008, value := 0, due := 100 }
def ss (m : Nat) : State :=
  let s := (on st fun t => { t with status := .parked, wait := .request }).setPart 0 { st.part 0 with pmon := BitVec.ofNat 64 m }
  s.setMyCore { s.myCore with reqs := [feReq], locks := [(15, some { holder := 0, count := 256 })] }

theorem hyp_StrandEvents :
    (swf Core.reset st.cores = true ∧ swf Cluster.reset st.clusters = true ∧ (∀ e ∈ st.cores, ∀ r ∈ e.2.reqs, r.strand ≠ 0)
      ∧ (st.strand 0).status = .running ∧ (st.strand 0).hold = false ∧ (st.strand 0).frames.length < 32
      ∧ tvecOk st ((st.pidOf 0).elim Partition.reset st.part) = true)
    ∧ ((ss 0).monitor 0 = none ∧ (ss 0x2000).monitor 0 = some 0 ∧ ((ss 0x2000).part 0).onDies = true)
    ∧ (swf Core.reset (ss 0).cores = true ∧ feReq ∈ ((ss 0).core 0).reqs ∧ feReq.strand = 0 ∧ feReq.due ≤ (ss 0).cycle
      ∧ (∀ e ∈ (ss 0).cores, ∀ q ∈ e.2.reqs, q.strand = 0 ∨ q.pa = feReq.pa → q = feReq) ∧ ((ss 0).core 0).reqs.length = 1
      ∧ ((ss 0).bankOf feReq.pa).map (·.1) = some 0)
    ∧ (((ss 0).core 0).lockOf 15 = some { holder := 0, count := 256 }
      ∧ ∀ x ∈ [mkEvent 5 0 .waiterWake 0 0], x.item < 8 ∨ (x.item = 8 ∧ x.sub ≤ 0)) := by decide +kernel

/-- A partition whose strands all sleep, with an interrupt monitor or none. -/
def sz (m : Word) : State := (on s0 fun t => { t with status := .asleep }).setPart 0 { s0.part 0 with pmon := m }

theorem hyp_ErrorEvents :
    (treeHigh s0 0 = false ∧ treeHigh (sz 0) 0 = true ∧ ((sz 0).part 0).asleep = false ∧ (sz 0).monitor 0 = none
      ∧ (sz 0x2000).monitor 0 = some 0 ∧ treeHigh (sz 0x2000) 0 = true ∧ ((sz 0x2000).part 0).onDies = true)
    ∧ ((s0.part 0).run ≠ .terminated ∧ s0.pidOf 0 = some 0 ∧ s0.monitor 0 ≠ some 0 ∧ (s0.strand 0).status ≠ .free)
    ∧ (let s := s0.setDie 0 { s0.die 0 with regions := [(0, some { pid := 0, enc := true })] }
      let t := s.setPart 0 { s.part 0 with desc := { (s.part 0).desc with vcount := 1 } }
      let w : GddrWrite := { pid := 0, line := 0x81, bytes := 1, objid := 0 }
      t.pidOf 0 = some 0 ∧ t.homeOf 0x4000 = some 0 ∧ t.homeOf 0x7FFFFFFFF ≠ some 0 ∧ t.place 0x4080 = .gddr 0
        ∧ { t.die 0 with writes := [w] }.writes.find? (fun w => decide (w.pid = 0) && decide (w.line / 2 = lineOf 0x4000 / 2)) = some w
        ∧ Memory.wf t.mem ∧ versionSlot t (t.part 0) 0 = some 0 ∧ (∀ i < 8, t.isPeer (macAt 0x4000 + i) = false) ∧ 0x4000 + 256 ≤ macAt 0x4000)
    ∧ (let e (array : Fin 16) : UeArgs := { array := array, die := 0, cluster := 0, core := 0, index := 0x4000, second := none, writeBack := false }
      let s := s0.setMyCore { s0.myCore with l1 := [{ line := 0x80, va := 0x4000, dirty := 0, ef := false, integ := none, tags := 0, known := 0 }] }
      ueOwners s0 (e 2) = [0] ∧ ueClean s0 (e 2) = false ∧ ueOwners s0 (e 10) = [] ∧ ueOwners s (e 4) ≠ [] ∧ ueClean s (e 4) = true
        ∧ (s0.part 0).monitorAway = false ∧ swf 0 (s0.part 0).ev = true)
    ∧ ({ s0 with clocksOff := true } : State).clocksOff = true ∧ s0.agenda = [] := by
  refine ⟨by decide +kernel, by decide +kernel, ?_, by decide +kernel, by decide +kernel, rfl⟩
  decide +kernel

/-- An answer that is a next state. -/
def isNext (a : Answer) : Bool := match a with
  | .next _ => true
  | _ => false
theorem exists_next {a : Answer} (h : isNext a = true) : ∃ t, a = .next t := by
  cases a <;> simp_all [isNext]

/-- Strand 0 parked in an instruction whose word stands at its pc. -/
def parkedIn (s : State) (w : Nat) (wait : Wait) : State :=
  { (on s fun t => { t with status := .parked, wait := wait }) with mem := memPut s.mem 0x2000 4 w }
/-- The state in which its instruction is tried again. -/
def again (s : State) : State := { s.setStrand 0 { s.strand 0 with status := .running } with cur := 0 }
/-- An answer after which strand 0 runs. -/
def runs0 (a : Answer) : Bool := match a with
  | .next u => decide ((u.strand 0).status = .running) && !u.stalled
  | _ => false

theorem hyp_CoreEvents :
    (let s := s0.setMyCore { s0.myCore with slotNext := [(96, true)], l1cfgNext := some 2, winRun := 255, rcache := (List.range 512).map fun k => { key := k, written := false } };
      (s.core 0).slotNext = [(96, true)] ∧ 96 ≤ s.cycle ∧ (s.core 0).l1cfgNext = some 2 ∧ addressed s 0 (changesRole (s.core 0).nb 2) = false
        ∧ Memory.wf s.mem ∧ swf false s.tags = true ∧ swf Core.reset s.cores = true ∧ (s.core 0).winRun = 255
        ∧ (let v : RegLine := { key := 511, written := false }
          let newer : List RegLine := (List.range 511).map fun k => { key := k, written := false }
          (∀ e ∈ (s.core 0).rcache, e.key ≠ 64 * 9 + 63) ∧ 512 ≤ (s.core 0).rcache.length ∧ (s.core 0).rcache = newer ++ v :: [] ∧ v ∉ newer
            ∧ (s.strand (v.owner 0)).gone = true ∧ (s.strand 0).status ≠ .free ∧ (s.strand 0).status ≠ .ended
            ∧ ((s.core 0).rcache.find? fun e => decide (e.key = 7)) = some { key := 7, written := false }))
    ∧ (let a : EqArgs := { ca := 12, cb := 0, xc := 5, f2 := 0, h := 0, sc := 0 }
      let s := parkedIn (on sk fun t => t.setX 5 0x51) 0 (.bankfmt a);
      (s.strand 0).status = .parked ∧ (s.strand 0).hold = false ∧ (s.strand 0).wait = .bankfmt a ∧ runs0 (exec (.bankfmt a) (again s)) = true)
    ∧ (∃ w, encode (.ofree (ra 0 1 0)) = some w
      ∧ (let s := parkedIn (so 0) w .retry;
        (s.strand 0).status = .parked ∧ (s.strand 0).hold = false ∧ ofreeAt s 0 = some (ra 0 1 0) ∧ runs0 (exec (.ofree (ra 0 1 0)) (again s)) = true))
    ∧ (let e : LinkEntry := { ctx := 0, num := 9, val := .x 3, ready := 100, go := false }
      let s := (s0.setStrand 16 { Strand.reset with status := .running, emptyX := 0x200 }).setLink 0 0 [e]
      s.link 0 0 = [e] ∧ e.ready ≤ s.cycle ∧ (s.strand (e.strand 0 0)).accepts e.reg = true
        ∧ (s0.strand (e.strand 0 0)).accepts e.reg = false)
    ∧ (let s := on sr fun t => { t with dropX := 32 };
      (s.strand 0).isDropped (rx 5) = true ∧ (s.strand 0).recipe ((s.strand 0).tieOf (rx 5) - 1) = [0x00398A01])
    ∧ (linksMove s0 (0 / 8) = true ∧ linksMove (sw .gated none) (0 / 8) = false)
    ∧ (swf Partition.reset s0.parts = true ∧ swf Cluster.reset s0.clusters = true ∧ s0.pidOfCluster 0 = some 0
      ∧ translate s0 (some 0) 0x4000 useWrite = .ok ((elemAt s0 0x4000 useWrite).leaf, 0x4000)
      ∧ (translate s0 (some 0) 0x80000000 useRead).toOption = none
      ∧ s0.place 0x4000 = .gddr 0 ∧ (s0.part 0).wmask ≠ 0 ∧ ∀ l ∈ sget [] (s0.die 0).l2 (setOf (lineOf 0x4000)), l.prot = false) := by
  refine ⟨by decide +kernel, by decide +kernel, ⟨_, rfl, by decide +kernel⟩, by decide +kernel, by decide +kernel, by decide +kernel,
    holds (fun _ => inferInstance) (by decide +kernel)⟩

/-- A launch of 2 by 3 by 4 tasks of the method `lm`, its tasks started on cluster 0 from task 5 on. -/
def tl : Launch := {
  gen := 1, source := .task 0, detach := false, method := lm, ops := [sk.me.readC 1], c31 := Cap.null, xs := [7, 8], d0 := 2, d1 := 3, d2 := 4
  queues := [(0, 5)], converts := [], doneN := 0, status := none, complete := false }
/-- That launch in slot 31; context 15 of core 0 admitted. -/
def sd : State :=
  let s := sk.setCluster 0 { sk.cluster 0 with launches := [(31, some tl)], order := [(0, 31)] }
  s.setMyCore { s.myCore with admitMask := 0x8000 }
/-- A mailbox of one record at 0x6000 whose word 15 is `w`. -/
def sb (w : Nat) : State :=
  let s := s0.setPart 0 { s0.part 0 with mbctl := BitVec.ofNat 64 (1 + 6 * 2 ^ 12), mbtail := 0, mbhead := 0xFFFF }
  { s with mem := memPut s.mem (0x6000 + 120) 8 w }
/-- Cluster 0 with one slot of strand 0 and a running pass. -/
def sa (st0 : SlotState) (ps : Option Pass) (refs : List Nat) : State :=
  let kp := sv.me.readC 15
  sv.setCluster 0 { sv.cluster 0 with pass := ps, kv := [(0, { KvSlot.reset with
    state := st0, owner := 0, ids := [0, 255], left := [0, 255], kpool := kp, vpool := sv.me.readC 16, refs := refs })] }

theorem hyp_DispatchEvents :
    (sd.pidOfCluster 0 = some 0 ∧ (sd.part 0).run = .running
      ∧ ((serving sd 0).any fun r => decide (r.1 = (0, 31)) && startable sd 0 0 r.2.1.id r.2.2.2 15
        && (r.2.1.xs.all fun e => decide (0 < e.1) && decide (e.1 < 32)) && decide (r.2.1.cs.length ≤ 8)) = true)
    ∧ (tl.converts = [] ∧ tl.queues.find? (fun q => decide (q.1 = 0)) = some (0, 5) ∧ 5 < tl.total)
    ∧ (let p := (sb 1).part 0
      p.mbctl.toNat % 2 = 1 ∧ p.mbhead ≠ p.mbtail ∧ p.run = .running ∧ (hostLaunch 0 0x6000 0 true (sb 1)).isSome = true
        ∧ (sb 1).load (0x6000 + 120) 8 ≠ 0 ∧ Memory.wf (sb 1).mem ∧ (sb 1).load (0x6000 + 24) 8 = 0 ∧ (sb 1).isPeer (0x6000 + 104) = false
        ∧ (let full := (sb 0).setCluster 0 { (sb 0).cluster 0 with launches := (List.range 32).map fun k => (k, some tl) }
          (hostLaunch 0 0x6000 0 true { full with mem := memPut full.mem 0x6008 8 0 }).isNone = true))
    ∧ (let s := sa .pending none []
      swf Cluster.reset s.clusters = true ∧ swf KvSlot.reset (s.cluster 0).kv = true ∧ (s.cluster 0).pass = none ∧ (s.kvSlot 0 0).state = .pending
        ∧ clusterRuns s 0 = true
        ∧ ∀ r < 64, (s.kvSlot 0 r).state = .pending → (s.kvSlot 0 0).age < (s.kvSlot 0 r).age ∨ r = 0)
    ∧ (let ps : Pass := { page := none, fetched := none, cause := 0, cores := [] }
      let t (base : Nat) : State :=
        let u := (sa .active (some ps) []).setKv 0 0 { (sa .active (some ps) []).kvSlot 0 0 with kpool := kvPool base 1, vpool := kvPool base 1 }
        { u with mem := memPut u.mem 0x3000 8 (0x3F0000000000 + 0x443) }
      let s := t 0x40000000
      let act := (List.range 64).filter fun q => decide ((s.kvSlot 0 q).state = .active)
      act = [0] ∧ (∃ q ∈ act, 0 ∈ (s.kvSlot 0 q).left) ∧ (∀ q ∈ act, ∀ x ∈ (s.kvSlot 0 q).left, 0 ≤ x)
        ∧ (fetchBoth 0 (s.kvSlot 0 0).kpool (s.kvSlot 0 0).vpool 0 s).toOption.isSome = true
        ∧ (fetchBoth 0 ((t 0x80000000).kvSlot 0 0).kpool ((t 0x80000000).kvSlot 0 0).vpool 0 (t 0x80000000)).toOption.isSome = false
        ∧ s.seamHolds (s.pidOfCluster 0) = false ∧ clusterRuns s 0 = true)
    ∧ (let bs := List.replicate 32 (0 : Byte)
      let ps : Pass := { page := some 255, fetched := some bs, cause := 0, cores := [0] }
      let s := sa .active (some ps) [0, 1, 2]
      clusterRuns s 0 = true ∧ bufUsed s 0 0 3 = false ∧ (∀ x < 3, bufUsed s 0 0 x = true) ∧ (writeBuffer 0 3 (s.kvSlot 0 0).kpool bs s).toOption.isSome = true
        ∧ ((List.range 64).filter fun q => decide ((s.kvSlot 0 q).state = .active) && decide (coreOf (s.kvSlot 0 q).owner = 0)
          && (s.kvSlot 0 q).left.contains 255) = [0]
        ∧ ∀ b < 4, bufUsed (sa .active (some ps) [0, 1, 2, 3]) 0 0 b = true)
    ∧ (let s := s0.setPart 0 { s0.part 0 with sweepActive := true, sweepNext := 2 ^ 31 - 1 }
      (s.part 0).sweepActive = true ∧ (s.part 0).run ≠ .descheduled ∧ Memory.wf s.mem ∧ swf false s.tags = true ∧ swf Strand.reset s.strands = true
        ∧ swf Partition.reset s.parts = true ∧ (∀ e ∈ s.strands, swf Cap.null e.2.c = true) ∧ ownsGranule s 0 0x4000 = true
        ∧ ownsGranule s 0 0x3F0000000000 = true ∧ s.pidOfCluster (7 / 8) = some 0 ∧ (s.part 0).sweepPend = false) := by
  refine ⟨by decide +kernel, by decide +kernel, by decide +kernel, by decide +kernel, by decide +kernel, by decide +kernel, by decide +kernel⟩

theorem hyp_EncodeDecode : Instr.WellFormed (.jal { off := -2 ^ 22, sc := 3 }) = true ∧ (encode (.jal { off := -2 ^ 22, sc := 3 })).isSome = true
    ∧ decode [0x01, 0x8A, 0x39, 0x00, 0xFF] = .ok (.whole (.add { rd := 5, rs1 := 6, rs2 := 7, sr := false, h := 0, sc := 0 })) 4 := by
  decide +kernel

/-- The strand of slot 0 of core 0 at an ADD, in its turn, ready when the cycle began. -/
def sf : State := { s0 with cycle := 96, turn := 0, ready := [0], mem := memPut s0.mem 0x2000 4 0x00398A01 }
/-- That state as the step looks at it. -/
def sf1 : State := { ({ sf with turn := 1 } : State).useCaches 0 with cur := 0, stalled := false }

theorem hyp_StepRunsInstruction :
    sf.agenda = [] ∧ sf.clocksOff = false ∧ sf.turn < 256 ∧ 16 * sf.turn + sf.cycle % 16 = 0 ∧ sf.pidOf 0 = some 0
    ∧ (sf.part 0).run = .running ∧ sf.ready.contains 0 = true
    ∧ (let t := sf.strand 0
      t.status = .running ∧ t.hold = false ∧ t.soPeer = false ∧ (∀ e ∈ t.events, t.takes e = false) ∧ t.nextIssue ≤ sf.cycle)
    ∧ sf1.me.status = .running ∧ sf1.me.rep = none ∧ staleRecord sf1 sf1.myPart sf1.me.pcc = none
    ∧ sf1.me.pc % 2 = 0 ∧ 0 ≤ sf1.me.pc ∧ sf1.me.pc + 4 ≤ sf1.me.pcc.extent 0
    ∧ (∀ k < 4, Reached sf1 useRead 1 none sf1.me.pcc.objid (sf1.me.pcc.base + sf1.me.pc + (k : Nat)) (elemAt sf1 (0x2000 + k) useRead))
    ∧ decode ((List.range 4).map fun k => sf1.byte (elemAt sf1 (0x2000 + k) useRead).pa)
        = .ok (.whole (.add { rd := 5, rs1 := 6, rs2 := 7, sr := false, h := 0, sc := 0 })) 4 := by
  dsimp only [Reached]
  exact holds (fun _ => inferInstance) (by decide +kernel)

theorem hyp_StepKeepsMemory : sf.MemOk ∧ ∃ t, step sf = .next t := ⟨by decide +kernel, exists_next (by decide +kernel)⟩

theorem hyp_StepKeepsTables : sf.TablesOk ∧ ∃ t, step sf = .next t := ⟨by decide +kernel, exists_next (by decide +kernel)⟩

theorem hyp_RegisterFrame : ∃ p, plainOf (.vred { vd := 1, vs1 := 1, vs2 := 2, pg := 0, f2 := 3, h := 0, sc := 0 }) = some p
    ∧ Ready p.reads p.writes p.lat s0 ∧ s0.me.ties = [] ∧ s0.lockFree :=
  ⟨_, rfl, by decide +kernel, by decide +kernel, lockFree_of_nil rfl⟩

theorem hyp_MemoryFrame :
    (Memory.wf sm.mem ∧ swf false sm.tags = true ∧ swf Strand.reset sm.strands = true ∧ sm.lockFree)
    ∧ numberLoad sm (.lde { rd := 5, cs := 2, xi := 2, xj := 2, h0 := false, sc := 0 }) = some (5, [rc 2, rx 2, rx 2], 4, true)
    ∧ (Ready [rc 2, rx 2, rx 2] [rx 5] 0 sm ∧ ElemReach sm 2 [1, 1] useRead (elemAt sm 0x4024 useRead))
    ∧ numberStore sm (.ste { rd := 5, cs := 2, xi := 2, xj := 2, h0 := false, sc := 0 }) = some (5, [rc 2, rx 2, rx 2, rx 5], 4)
    ∧ (Ready [rc 2, rx 2, rx 2, rx 5] [] 0 sm ∧ ElemReach sm 2 [1, 1] useWrite (elemAt sm 0x4024 useWrite)
      ∧ (elemAt sm 0x4024 useWrite).leaf.at_ + 1 < (elemAt sm 0x4024 useWrite).pa
      ∧ ((elemAt sm 0x4040 useWrite).leaf.at_ + 1) / 64 ≠ (elemAt sm 0x4040 useWrite).pa / 64) := by
  refine ⟨⟨by decide +kernel, by decide +kernel, by decide +kernel, lockFree_of_nil rfl⟩, by decide +kernel, ?_, by decide +kernel, ?_⟩ <;>
  · dsimp only [ElemReach, Reached]
    exact holds (fun _ => inferInstance) (by decide +kernel)

theorem hyp_ResultReadable : s0.me.RegsOk ∧ (RegVal.x 3).cls = (rx 5).cls ∧ (rx 5).fixed = false ∧ s0.me.pendingAfter (rx 5) (100 + 10) = false
    ∧ (RegVal.p 0).cls = (rp 0).cls ∧ (rp 0).fixed = true := by decide +kernel

theorem hyp_SleepAndHold_peer :
    let t (seam : Seam) (paired : Option Nat) : State :=
      { (on sk fun t => t.setX 5 4096).setPart 0 { sk.part 0 with paired := paired } with seam := seam }
    Settled (t .retraining (some 3)) ∧ Ready [rx 5] [rx 6] 0 (t .retraining (some 3)) ∧ 2 ^ 12 ≤ ((t .retraining (some 3)).me.readX 5).toNat
      ∧ (t .retraining (some 3)).seam = .retraining ∧ (t .retraining (some 3)).myPart.paired.isSome = true
      ∧ Settled (t .up (some 3)) ∧ Ready [rx 5] [rx 6] 0 (t .up (some 3)) ∧ (t .up (some 3)).seam ≠ .retraining
      ∧ (t .retraining none).myPart.paired = none := by decide +kernel

theorem hyp_Subscriptions_waiting :
    let r : KvReq := { strand := 5, args := ra 5 14 1, ids := [0], obase := 0, kpool := sv.me.readC 15, vpool := sv.me.readC 16 }
    let s := (on sk fun t => t.setX 5 63).setCluster 0 { sk.cluster 0 with
      kvWait := [r], kv := (List.range 64).map fun q => (q, { KvSlot.reset with state := .drained, owner := 0 }) }
    Ready [rx 5] [] 0 s ∧ swf Cluster.reset s.clusters = true ∧ swf KvSlot.reset (s.cluster 0).kv = true ∧ (s.me.readX 5).toNat = 63
      ∧ (s.kvSlot 0 63).state ≠ .free ∧ (s.kvSlot 0 63).owner = s.cur ∧ freeKv s 0 = none ∧ (s.cluster 0).kvWait = [r] ∧ r.strand ≠ s.cur
      ∧ (s.strand r.strand).dropX = 0 ∧ (s.strand r.strand).dropV = 0 := by decide +kernel

theorem hyp_CacheControl_acting : ∀ which : Fin 3,
    let s := on sk fun t => { t with status := .parked, wait := .slices which (ra 0 1 2) }
    s.me.status = .parked ∧ s.me.wait = .slices which (ra 0 1 2) := by decide +kernel

theorem hyp_Lifetimes_paired :
    let s (n : Nat) : State := { (so 0).setPart 0 { (so 0).part 0 with paired := some 3 } with unacked := if n = 0 then [] else [(0, n)] }
    LiveReach (s 0) (ra 0 1 0) ∧ inFlight (s 0) (s 0).myPid ((s 0).me.readC 1).objid = false ∧ (s 0).myPart.paired.isSome = true
      ∧ (s 0).posted ((s 0).pidOf (s 0).cur) = false ∧ LiveReach (s 1) (ra 0 1 0) ∧ (s 1).posted ((s 1).pidOf (s 1).cur) = true := by decide +kernel

theorem hyp_ManagerEvents_tables : swf Core.reset State.reset.cores = true ∧ swf Cluster.reset State.reset.clusters = true := by decide +kernel

theorem hyp_SwapEvents_terminated : ((sw .terminated none).part 0).run = .terminated ∧ (sw .halted none |>.part 0).present = true
    ∧ (sw .halted none |>.part 0).run ≠ .terminated := by decide +kernel

theorem hyp_SeamEvents_saved :
    let v : Saved := { s0.image 0 with strands := [(5, { Strand.reset with status := .asleep })] }
    let s := (sw .descheduled (some v)).setPart 0 { (sw .descheduled (some v)).part 0 with paired := some 3 }
    (s.part 0).paired.isSome = true ∧ (s.part 0).onDies = false ∧ (s.part 0).saved = some v ∧ swf Strand.reset v.strands = true
      ∧ (5, { Strand.reset with status := .asleep }) ∈ v.strands := by decide +kernel

theorem hyp_LinkEngineEvents_seam :
    let o := linkHead true true 8 0 (sc.me.readC 2)
    (se o).seamHolds (some 0) = false ∧ (se o).posted (some 0) = false ∧ ({ se o with unacked := [(0, 1)] } : State).posted (some 0) = true := by
  decide +kernel

theorem hyp_MatrixRows_alone :
    let o := matOp 9 (.mstore 15 3 true) (some 60) 0
    ((sm2 [o] 8).core 0).storesAfter o = [] ∧ o.held = none ∧ (∀ p ∈ ((sm2 [o] 8).core 0).mq, p.seq < o.seq → p.storing = false)
      ∧ ({ o with held := some [1] } : MatOp).held = some [1] := by decide +kernel

theorem hyp_CopyEvents_prefetch :
    let o := head3 .cpf true 0 (sc.me.readC 1) Cap.null
    swf Core.reset (sh o).cores = true ∧ o.started = true ∧ o.kind = .cpf ∧ o.seq = ((sh o).copyQueue 0 3).done + 1
      ∧ ((sh o).copyQueue 0 3).halted = false ∧ ((sh o).copyQueue 0 3).ops = [o] ∧ ((sh o).copyQueue 0 3).late = [] ∧ o.overlaps = false := by decide +kernel

/-- Partition 0 with its monitor on the peer card. -/
def away (s : State) : State := s.setPart 0 { s.part 0 with paired := some 3, pmon := 0x3000 }

theorem hyp_StrandEvents_causes :
    causeCodes.contains Cause.ecall.code = true ∧ causeCodes.contains 0xFF = false ∧ (st.strand 0).droppedBy (rc 31) = []
      ∧ (away st).monitor 0 = none ∧ ((away st).part 0).monitorAway = true ∧ ((ss 0).part 0).monitorAway = false := by decide +kernel

theorem hyp_ErrorEvents_away : treeHigh (away (sz 0)) 0 = Config.peerAsleep (away (sz 0)).cycle 0
    ∧ ((away (sz 0)).part 0).asleep = false ∧ (away (sz 0)).monitor 0 = none ∧ ((away (sz 0)).part 0).monitorAway = true
    ∧ ((sz 0).part 0).monitorAway = false := by
  refine ⟨?_, by decide +kernel⟩
  have h : (decide (((away (sz 0)).part 0).run = .running)
      && ((((away (sz 0)).coreMap 0).flatMap fun c => (List.range 16).map (16 * c + ·)).all (contextAsleep (away (sz 0))))
      && !(traffic (away (sz 0)) 0)) = true := by decide +kernel
  have h' : ((away (sz 0)).part 0).paired.isNone = false := by decide +kernel
  simp only [treeHigh, h, h', Bool.true_and, Bool.false_or]

/-- Strand 0 waits in that BANKFMT. -/
def formatting (s : State) : State := on s fun t => { t with status := .parked, wait := .bankfmt bf }

theorem hyp_CoreEvents_bank :
    ((formatting sbf).strand 0).status = .parked ∧ ((formatting sbf).strand 0).hold = false ∧ ((formatting sbf).strand 0).wait = .bankfmt bf
    ∧ FormatReach ((formatting sbf).trying 0) bf 0 ∧ addressed ((formatting sbf).trying 0) 0 (fun k => decide (k = 0)) = false
    ∧ ((formatting sbfBusy).strand 0).wait = .bankfmt bf ∧ FormatReach ((formatting sbfBusy).trying 0) bf 0
    ∧ addressed ((formatting sbfBusy).trying 0) 0 (fun k => decide (k = 0)) = true :=
  ⟨by decide +kernel, by decide +kernel, by decide +kernel, formatReach_of (by decide +kernel), by decide +kernel, by decide +kernel,
    formatReach_of (by decide +kernel), by decide +kernel⟩

theorem hyp_CoreEvents_free : ∃ w, encode (.ofree (ra 0 1 0)) = some w
    ∧ (let s := parkedIn (so 0) w .retry
      (s.strand 0).status = .parked ∧ (s.strand 0).hold = false ∧ (∀ x z, (s.strand 0).wait ≠ .ofreePeer x z) ∧ ofreeAt s 0 = some (ra 0 1 0)
        ∧ LiveReach (s.trying 0) (ra 0 1 0) ∧ (s.trying 0).myPart.paired = none
        ∧ inFlight (s.trying 0) (s.trying 0).myPid ((s.strand 0).readC 1).objid = false)
    ∧ (let s := parkedIn (so 0) w (.ofreePeer (ra 0 1 0) none)
      (s.strand 0).status = .parked ∧ (s.strand 0).wait = .ofreePeer (ra 0 1 0) none ∧ sget 0 s.unacked 0 = 0
        ∧ sget 0 ({ s with unacked := [(0, 1)] } : State).unacked 0 ≠ 0) := by
  refine ⟨_, rfl, ⟨by decide +kernel, by decide +kernel, ?_, by decide +kernel⟩, by decide +kernel⟩
  intro x z h
  cases h

theorem hyp_CoreEvents_replay : ((on sr fun t => { t with dropX := 32 }).strand 0).takesTraps = true
    ∧ ((on sr fun t => { t with hold := true }).strand 0).takesTraps = false
    ∧ s0.myCore.rcache.length < 512 ∧ (∀ e ∈ s0.myCore.rcache, e.key ≠ 7) ∧ (s0.strand 0).status ≠ .ended := by decide +kernel

theorem hyp_DispatchEvents_pair :
    let t (here there : Bool) : State := s0.setPart 0 { s0.part 0 with sweepActive := true, sweepNext := 1, paired := some 3, sweepHere := here, sweepThere := there }
    ((t false true).part 0).sweepThere = true ∧ ((t false false).part 0).paired ≠ none ∧ ((t false false).part 0).sweepThere = false
      ∧ ((t false false).part 0).sweepHere = false ∧ ((t true false).part 0).sweepHere = true ∧ ((t true false).part 0).sweepActive = true
      ∧ ((t true false).part 0).sweepPend = false ∧ swf Partition.reset (t true false).parts = true := by decide +kernel

theorem hyp_ResultReadable_merge : (RegVal.m 5 (spread 1 128 fun i => decide (i < 4))).cls = (rv 3).cls ∧ (rv 3).fixed = false
    ∧ s0.me.pendingAfter (rv 3) (100 + 10) = false := by decide +kernel

/-! Worked examples of the spec. -/

/-- The state after the instruction with a word runs on a strand that `f` has set up, every result written. -/
noncomputable def run (w : Nat) (f : Strand → Strand) : Option State :=
  match decodeTableWord 32 w with
  | none => none
  | some i => match exec i (on s0 f) with
    | .next s => some (s.setMe s.me.commitAll)
    | _ => none
/-- Its register x[r]. -/
noncomputable def xAfter (r w : Nat) (f : Strand → Strand) : Option Word := (run w f).map fun s => s.me.readX r
/-- x[r] and FFLAGS. -/
noncomputable def xFlags (r w : Nat) (f : Strand → Strand) : Option (Word × BitVec 8) := (run w f).map fun s => (s.me.readX r, s.me.fflags)
/-- A vector of 4-byte elements. -/
def vec4 (f : Nat → Nat) : Vec := BitVec.ofNat 1024 (packLanes 4 32 f)
/-- The words of the scalar instructions of the examples: `i` encoded. -/
def wordOf (i : Instr) : Nat := (encode i).getD 0

/-- 02_encoding.md: REP 4, d, o=1 and LW x8, 0(c3). -/
theorem test_words_rep : decodeTableWord 32 0x00901017 = some (.rep { ostep := 1, s2 := false, s1 := false, sd := true, count := 4, xc := false, sc := 0 })
    ∧ decodeTableWord 32 0x0010D019 = some (.lw { rd := 8, rs1 := 3, imm := 0, sc := 0 }) := by decide +kernel

/-- 03_scalar_control.md, quotients and remainders: DIV, REM, DIVN, REMN. -/
theorem test_division :
    (let go (i : RArgs → Instr) (a b : Word) := xAfter 5 (wordOf (i (ra 5 6 7))) fun t => (t.setX 6 a).setX 7 b;
      go .div (-7) 2 = some (-3) ∧ go .rem (-7) 2 = some (-1) ∧ go .div 7 (-2) = some (-3) ∧ go .rem 7 (-2) = some 1
        ∧ go .divn 0xFFFFFFFFFFFFFFF9 2 = some 0x7FFFFFFFFFFFFFFC ∧ go .remn 5 0 = some 5
        ∧ go .div 0x8000000000000000 (-1) = some 0x8000000000000000) := by decide +kernel

/-- 03_scalar_control.md, building 0x00123ABC. -/
theorem test_lui_addi : xAfter 7 0x0123CE87 id = some 0x123C00 ∧ xAfter 7 0xAF01CE05 (fun t => t.setX 7 0x123C00) = some 0x123ABC := by
  decide +kernel

/-- 03_scalar_control.md, conversions: a tie to even, RUP, overflow of FP16 with and without SAT, −2.5 to S64 by RNE; the word of RUP. -/
theorem test_fcvt :
    (let go (d : Fin 4) (rm : Fin 4) (sat : Bool) (x : Word) :=
        xFlags 5 (wordOf (.fcvt { dst := d, src := 0, sat := sat, rd := 5, rs1 := 6, rm := rm, sr := false, h := 0, sc := 0 })) fun t => t.setX 6 x;
      go 1 0 false 0x3F808000 = some (0x3F80, flNX) ∧ go 1 3 false 0x3F808000 = some (0x3F81, flNX)
        ∧ go 2 0 false 0x4788B800 = some (0x7C00, flOF ||| flNX) ∧ go 2 0 true 0x4788B800 = some (0x7BFF, flSAT ||| flNX)
        ∧ go 3 0 false 0xC0200000 = some (0xFFFFFFFFFFFFFFFE, flNX))
    ∧ xFlags 5 0x08198A0F (fun t => t.setX 6 0x3F808000) = some (0x3F81, flNX) := by decide +kernel

/-- 03_scalar_control.md, a counted loop: BNE x6, x0, loop at 0x10 goes back to 0x08 while x6 is not zero. -/
theorem test_loop_branch : (run 0xF901B811 fun t => { t with pc := 0x10, x := [(6, 1)] }).map (·.me.pc) = some 0x08
    ∧ (run 0xF901B811 fun t => { t with pc := 0x10 }).map (·.me.pc) = some 0x14 := by decide +kernel

/-- 05_vector.md, a predicated fused multiply-add: elements 0 and 2 become 7.0, the others stay 1.0. -/
theorem test_vfma : (run 0x02314847 fun t =>
      (((t.setV 5 (vec4 fun _ => 0x40000000)).setV 6 (vec4 fun _ => 0x40400000)).setV 4 (vec4 fun _ => 0x3F800000)).setP 2 0xF0F).map
        (fun s => (s.me.readV 4, s.me.fflags)) = some (vec4 fun i => if i = 0 ∨ i = 2 then 0x40E00000 else 0x3F800000, 0) := by decide +kernel

/-- 05_vector.md, narrowing: VCVT.BF16.F32.RTZ v7, v8. -/
theorem test_vcvt : (run 0x082A0E59 fun t => t.setV 8 (vec4 fun i => [0x3F800000, 0x3F808000, 0x3F818000, 0xC2F70000].getD i 0)).map
      (fun s => (List.range 6).map fun i => elemOf (s.me.readV 7) 2 i) = some [0x3F80, 0x3F80, 0x3F81, 0xC2F7, 0, 0] := by decide +kernel

/-- 05_vector.md, the tree: 2^24 and thirty-one times 1.0 sum to 2^24 + 30. -/
theorem test_vred : (run (wordOf (.vred { vd := 10, vs1 := 9, vs2 := 0, pg := 0, f2 := 0, h := 0, sc := 0 })) fun t =>
      t.setV 9 (vec4 fun i => if i = 0 then 0x4B800000 else 0x3F800000)).map (fun s => (s.me.readV 10, s.me.fflags)) = some (0x4B80000F, flNX) := by
  decide +kernel

/-- 05_vector.md, the tail of a 37-element loop: VWHILE.E32 p1, x3, x9 at x3 = 32. -/
theorem test_vwhile : (run 0x1648C265 fun t => (t.setX 3 32).setX 9 37).map (fun s => s.me.readP 1) = some 0xFFFFF := by decide +kernel

/-- c4 of 01_strand_state.md: FP32 at 0x00400000, extents 24 and 10, strides 1 and 32. -/
def c4 : Cap := tcap 0x12 0x400000 [(24, 1), (10, 32)]

/-- 06_capability_memory.md, a row window with a step: CSLICE c5, c4, x9; CSTEP c6, c5, x8; element [4, 4]; CAP_DERIVE for A 8, B 3. -/
theorem test_derivation :
    (let s1 := run 0x00490A31 fun t => (t.setC 4 c4).setX 9 0x50000201;
      s1.map (fun s => ((s.me.readC 5).base, (s.me.readC 5).extent 0, (s.me.readC 5).extent 1)) = some (0x400100, 24, 5)
        ∧ (s1.bind fun s => (run 0x02414C31 fun t => (t.setC 5 (s.me.readC 5)).setX 8 0x500).map fun u =>
          ((u.me.readC 6).extent 0, (u.me.readC 6).stride 0, elementAddr (u.me.readC 6) [4, 4])) = some (5, 5, 0x400350)
        ∧ elementAddr c4 [20, 6] = 0x400350)
    ∧ (match exec (.cslice (ra 5 4 9)) (on (s0.setPart 0 st.myPart) fun t => (t.setC 4 c4).setX 9 0x30000801) with
      | .next s => decide (s.me.tcause = BitVec.ofNat 64 Cause.capDerive.code.toNat ∧ s.me.tval = 0x30000801 ∧ s.me.tcap = 4 ∧ s.me.readC 5 = Cap.null)
      | _ => false) = true := by decide +kernel

/-- 15_attention.md, arrival order does not matter: O is 2^24 after ordinals 0, 1, 2, and the quotient by L = 3 rounds to 0x4AAAAAAB. -/
theorem test_merge :
    (let k := [0x4B800000, 0x3F800000, 0x3F800000].foldl (fun k o => MergeSlot.combine k { m := 0, l := 0x3F800000, o := [o] })
        { MergeSlot.reset with valid := true, dim := 1, nord := 3, o := [0] };
      k.o = [0x4B800000] ∧ k.l = 0x40400000
        ∧ (fp32.round ((fp32.decode 0x4B800000).1.div (fp32.decode 0x40400000).1).1 .rne false) = (0x4AAAAAAB, flNX)) := by decide +kernel

/-- 17_die.md, finding the home of a line. -/
theorem test_home : lineOf 0x12345680 = 0x2468AD ∧ setOf 0x2468AD = 9 * 2048 + 0x345 := by decide

/-- 07_strand_sync_recipes_traps.md: the word of AMOADD.AR.DIE x5, x6, c3. -/
theorem test_word_amo : decodeTableWord 32 0xB030CA2B = some (.amoadd { rd := 5, cs := 3, rs2 := 6, scope := 3, ord := 3, sc := 0 })
    ∧ decodeTableWord 32 0xAB008E29 = some (.ldAcq { rd := 7, cs := 2, rs2 := 0, scope := 2, ord := 1, sc := 0 })
    ∧ decodeTableWord 32 0xDD00002B = some (.fence { rd := 0, cs := 0, rs2 := 0, scope := 5, ord := 3, sc := 0 }) := by decide +kernel

/-- 02_encoding.md: ADD.SC1 x5, x6.SR, x7 empties x6. -/
theorem test_add_sync : (run 0x01398A81 fun t => (t.setX 6 30).setX 7 12).map (fun s => (s.me.readX 5, s.me.isFull (rx 6))) = some (42, false) := by
  decide +kernel

/-- A BF16 product row (R286): 2.0 times 3.0 added to nothing is 6.0, in the one row that the operation names. -/
theorem test_mma_row :
    (let o : MatOp := { matOp 1 (.mma false false true 15 2) (some 99) 1 with
        cap := tcap 0x11 0x40000000 [(1, 1), (2, 1)], pas := [0x3F0000000000, 0x3F0000000002] }
      let s := sx.setMyCore { sx.myCore with mq := [o], active := [(31, 0x4040)] }
      let t := ({ s with mem := memPut s.mem 0x3F0000000002 2 0x4000 }.rowOp 0 o 1).core 0
      sget 0 t.acc (15 * 4096 + 32 + 31) = 0x40C00000 ∧ sget 0 t.acc (15 * 4096 + 31) = 0) := by decide +kernel

end Sys2Proof.Tests
end

section
/-! PROOFS. The privilege checks of the control registers (R46, R114): which check of `csrPre` a CSR instruction fails first, and the trap
that this check raises before the instruction has any effect. -/

namespace Sys2Proof.Machine

theorem need_false (c : Cause) (v : Word) (cap : Nat) : need false c v cap = fault c v cap := rfl

/-- A check that fails ends what follows it. -/
theorem need_false_bind {α : Type} (c : Cause) (v : Word) (cap : Nat) (f : Unit → Except Stop α) :
    (need false c v cap >>= f) = fault c v cap := rfl

/-- A check that passes leaves what follows it. -/
theorem need_true_bind {α : Type} (c : Cause) (v : Word) (cap : Nat) (f : Unit → Except Stop α) :
    (need true c v cap >>= f) = f () := rfl

/-- A number that Table 1.8 does not give fails the first check, whatever the form of the instruction. -/
theorem csrPre_absent (f3 reg : Nat) (a : IArgs) (s : State) (hk : csrKnown (csrNum a) = false) :
    csrPre f3 reg a s = fault .illegal (csrWord f3 a) 0 := by
  simp only [csrPre, hk, need_false_bind]

/-- A known register whose instruction has an allowed form comes to the two checks of R46. -/
theorem csrPre_known (f3 reg : Nat) (a : IArgs) (s : State) (hk : csrKnown (csrNum a) = true)
    (hcap : 2 ≤ f3 → csrIsCap (csrNum a) = false) (hpair : csrNum a = csrTVEC → reg ≠ 31) :
    csrPre f3 reg a s = (do
      need (!(csrPriv (csrNum a)) || s.me.sys) .priv (BitVec.ofNat 64 (csrNum a)) 0
      need (!(decide (csrNum a = csrADMIT) && decide (f3 ≠ 0)) || decide (s.cur % 16 = 0)) .priv (BitVec.ofNat 64 (csrNum a)) 0) := by
  have hform : (!(csrIsCap (csrNum a) && decide (2 ≤ f3))) = true := by
    by_cases h : 2 ≤ f3 <;> simp [h, hcap]
  have hreg : (!(decide (csrNum a = csrTVEC) && decide (reg = 31))) = true := by
    by_cases h : csrNum a = csrTVEC <;> simp [h, hpair]
  simp only [csrPre, hk, hform, hreg, need_true_bind]

/-- The checks of R46: a privileged register without SYS, or ADMIT written outside context 0, raises PRIV. -/
theorem csrPre_outOfReach (f3 reg : Nat) (a : IArgs) (s : State) (hk : csrKnown (csrNum a) = true)
    (hcap : 2 ≤ f3 → csrIsCap (csrNum a) = false) (hpair : csrNum a = csrTVEC → reg ≠ 31)
    (h : (csrPriv (csrNum a) = true ∧ s.me.sys = false) ∨ (csrNum a = csrADMIT ∧ f3 ≠ 0 ∧ s.cur % 16 ≠ 0)) :
    csrPre f3 reg a s = fault .priv (BitVec.ofNat 64 (csrNum a)) 0 := by
  rw [csrPre_known f3 reg a s hk hcap hpair]
  rcases h with ⟨hp, hs⟩ | ⟨hn, hf, hc⟩
  · simp only [hp, hs, Bool.not_true, Bool.or_false, need_false_bind]
  · have hp : csrPriv csrADMIT = false := by decide
    simp only [hn, hp, Bool.not_false, Bool.true_or, need_true_bind, hf, hc, ne_eq, not_false_eq_true, decide_true, decide_false, Bool.and_true,
      Bool.not_true, Bool.or_false, need_false]

/-- The selector field and the register field of a CSR instruction, with its operands. -/
def csrForm (i : Instr) : Option (Nat × Nat × IArgs) :=
  match i with
  | .csrr a => some (0, a.rd.val, a)
  | .csrw a => some (1, a.rs1.val, a)
  | .csrs a => some (2, a.rs1.val, a)
  | .csrc a => some (3, a.rs1.val, a)
  | _ => none

/-- What `csrForm` gives is what the encoder and the first checks of the instruction use: the word is that of `csrWord`, and a trap of
`csrPre` is all that the instruction does. -/
theorem encode_and_exec_of_csrForm (i : Instr) (f3 reg : Nat) (a : IArgs) (h : csrForm i = some (f3, reg, a)) :
    encode i = some (encI 0x3F f3 a)
    ∧ ∀ (s : State) (t : TrapInfo), csrPre f3 reg a s = .error (.trap t) → exec i s = .next (s.trapMe t) := by
  unfold csrForm at h
  split at h
  case h_5 => cases h
  case h_1 a => cases h; exact ⟨rfl, fun s t => issue_of_pre (bodyCsrr a) s t⟩
  case h_2 a => cases h; exact ⟨rfl, fun s t => issue_of_pre (bodyCsrw a) s t⟩
  case h_3 a => cases h; exact ⟨rfl, fun s t => issue_of_pre (bodyCsrs a) s t⟩
  case h_4 a => cases h; exact ⟨rfl, fun s t => issue_of_pre (bodyCsrc a) s t⟩

/-- R46: a CSR instruction on an absent number raises ILLEGAL with its word. -/
theorem exec_csr_absent (i : Instr) (f3 reg : Nat) (a : IArgs) (s : State) (h : csrForm i = some (f3, reg, a))
    (hk : csrKnown (csrNum a) = false) : exec i s = .next (s.trapMe (illegalOf ((encode i).getD 0))) := by
  obtain ⟨hword, htrap⟩ := encode_and_exec_of_csrForm i f3 reg a h
  rw [hword]
  exact htrap s _ (csrPre_absent f3 reg a s hk)

/-- R46: a CSR instruction of an allowed form on a register out of its reach raises PRIV with the number of the register. -/
theorem exec_csr_outOfReach (i : Instr) (f3 reg : Nat) (a : IArgs) (s : State) (h : csrForm i = some (f3, reg, a))
    (hk : csrKnown (csrNum a) = true) (hcap : 2 ≤ f3 → csrIsCap (csrNum a) = false) (hpair : csrNum a = csrTVEC → reg ≠ 31)
    (hr : (csrPriv (csrNum a) = true ∧ s.me.sys = false) ∨ (csrNum a = csrADMIT ∧ f3 ≠ 0 ∧ s.cur % 16 ≠ 0)) :
    exec i s = .next (s.trapMe { cause := .priv, tval := BitVec.ofNat 64 (csrNum a), tcap := 0 }) :=
  (encode_and_exec_of_csrForm i f3 reg a h).2 s _ (csrPre_outOfReach f3 reg a s hk hcap hpair hr)

/-- The CSR instructions of R46 that pass the form checks of R114: each has a CSR form, CSRS and CSRC do not name a register that holds capabilities, the register
field matters to TVEC alone, and only CSRR has selector 0. -/
theorem exists_csrForm (i : Instr) (a : IArgs) (reg : Nat)
    (h : (i = .csrr a ∧ reg = a.rd.val) ∨ (i = .csrw a ∧ reg = a.rs1.val)
      ∨ ((i = .csrs a ∨ i = .csrc a) ∧ reg = 0 ∧ csrNum a ≠ csrTVEC ∧ csrNum a ≠ csrCONVPOOL)) :
    ∃ f3 reg', csrForm i = some (f3, reg', a) ∧ (2 ≤ f3 → csrIsCap (csrNum a) = false) ∧ (csrNum a = csrTVEC → reg' = reg)
      ∧ (i ≠ .csrr a → f3 ≠ 0) := by
  rcases h with ⟨rfl, rfl⟩ | ⟨rfl, rfl⟩ | ⟨hi, -, htvec, hpool⟩
  · exact ⟨0, _, rfl, by omega, fun _ => rfl, fun hne => absurd rfl hne⟩
  · exact ⟨1, _, rfl, by omega, fun _ => rfl, fun _ => by omega⟩
  · have hcap : csrIsCap (csrNum a) = false := by simp [csrIsCap, htvec, hpool]
    rcases hi with rfl | rfl
    · exact ⟨2, _, rfl, fun _ => hcap, fun hn => absurd hn htvec, fun _ => by omega⟩
    · exact ⟨3, _, rfl, fun _ => hcap, fun hn => absurd hn htvec, fun _ => by omega⟩

/-- Settles O13: the checks of `csrPre` come before every effect, and the first that fails gives the trap. -/
theorem csrPrivilege : Obligations.CsrPrivilege := by
  unfold Obligations.CsrPrivilege
  intro i a s reg n hi
  obtain ⟨f3, reg', hform, hcap, hreg, hwrite⟩ := exists_csrForm i a reg hi
  refine ⟨exec_csr_absent i f3 reg' a s hform, fun hk h31 hreach => ?_⟩
  refine exec_csr_outOfReach i f3 reg' a s hform hk hcap (fun hn => hreg hn ▸ h31 hn) ?_
  exact hreach.imp_right fun ⟨hn, hne, hcur⟩ => ⟨hn, hwrite hne, hcur⟩

end Sys2Proof.Machine
end

section
/-! PROOFS. NOP and the trusted-stack test of TEND (R109, R111): two instructions that write no register, so that issuing them only ends
BSKIP, and whose effects are decided on that strand. -/

namespace Sys2Proof.Machine

/-- R223: the strand of an instruction that writes no register and has no synchronised read only leaves BSKIP as it issues. -/
theorem Strand.issued_none_nil (t : Strand) : t.issued none [] = { t with bskip := false } := rfl

/-- Settles O2: the body of NOP reads and writes nothing, and its effect leaves the strand as it issues. -/
theorem nopCompletes : Obligations.NopCompletes := by
  unfold Obligations.NopCompletes
  intro a s hready
  have hrunning : (s.me.issued none []).status = .running := by rw [Strand.issued_none_nil, hready.1]
  exact issue_of_strand (bodySimple a (effNop a)) s (s.me.issued none []) rfl rfl (fun _ hr => absurd hr List.not_mem_nil) hready hrunning rfl

/-- R109: the first check of TEND, before any wait, fails on a trusted stack that is not empty. -/
theorem effTend_of_frames_ne_nil (a : IArgs) (s : State) (h : s.me.frames ≠ []) :
    effTend a s = fault .tstack (BitVec.ofNat 64 s.me.frames.length) 0 := by
  have htest : decide (s.me.frames.length = 0) = false := by simp [h]
  simp only [effTend, htest, need_false_bind]

/-- The strand that TEND issues on is running and has the frames that it had before. -/
theorem frames_of_begin_tend (a : IArgs) (s : State) (h : s.me.status = .running) :
    (s.setMe (s.me.begin (bodyTend a))).me.frames = s.me.frames := by
  have hissued : s.me.begin (bodyTend a) = { s.me with bskip := false } := s.me.issued_none_nil
  have hrunning : (s.me.begin (bodyTend a)).status = .running := by rw [hissued, h]
  rw [s.me_setMe_running hrunning, hissued]

/-- Settles O29: TEND issues with the frames in place, so that its first check gives the trap with their number. -/
theorem tendTrap : Obligations.TendTrap := by
  unfold Obligations.TendTrap
  intro a s hready hframes
  have hsame := frames_of_begin_tend a s hready.1
  have heff : (bodyTend a).eff 0 (s.setMe (s.me.begin (bodyTend a))) = fault .tstack (BitVec.ofNat 64 s.me.frames.length) 0 := by
    rw [← hsame] at hframes ⊢
    exact effTend_of_frames_ne_nil a _ hframes
  exact issue_of_trap (bodyTend a) s _ rfl rfl (fun _ hr => absurd hr List.not_mem_nil) hready heff

end Sys2Proof.Machine
end
